-- ==== Sys2Proof/Word.lean ====
section
/-! DEFINITION. The word types of Ronhorn: what the manual treats as bits. -/

namespace Sys2Proof

/-- A 32-bit register or table word (R344, R345). -/
abbrev Word := BitVec 32

/-- A 64-bit register, angle or message word (R31, R64, R126). -/
abbrev W64 := BitVec 64

/-- The 80 bits of an internal angle A_i: 64 bits of turn count and tu, 16 fraction bits (R126). -/
abbrev Angle := BitVec 80

/-- The 72-bit accumulator of an engine (R195). -/
abbrev Acc := BitVec 72

/-- A byte of the NVM memory (R246). -/
abbrev Byte := BitVec 8

end Sys2Proof
end

