-- ==== Sys2Proof/Syntax.lean ====
section
/-! DEFINITION. The commands of Ronhorn: one constructor per row of spec/opcode_table.json. -/

namespace Sys2Proof

/-- Size of a register-port access, REG_SIZE (R348). -/
inductive Size where
  | b8 | b16 | b32 | b64
  deriving DecidableEq, Repr

/-- A read at the register port: its address and size (R24, R348). -/
structure PortRead where
  addr : Nat
  size : Size
  deriving DecidableEq, Repr

/-- The image of a window an access uses (R21). -/
inductive Image where
  | plain | set | clr | tgl
  deriving DecidableEq, Repr

/-- What the checkers beside an engine instruction find (R196, R201, R295): nothing, an uncorrectable
error in the fetched word, a residue mismatch, a corrected slot word, an uncorrectable slot word (log 7). -/
inductive Chk where
  | ok | eccFetch | residue | eccCorr | eccSlot
  deriving DecidableEq, Repr

/-- What the checks at a reflex's first edge find (R177, R180): nothing, an uncorrectable preloaded slot
word, an uncorrectable descriptor word, an uncorrectable first instruction word (log 7). -/
inductive PreChk where
  | ok | eccSlot | eccDesc | eccFetch
  deriving DecidableEq, Repr

/-- An arbiter instance of the table "Arbiter instances" (R213). -/
inductive ArbInst where
  | outbound
  | sram (bank : Nat)
  | nvm
  deriving DecidableEq, Repr

/-- Who wants a unit of an SRAM bank: the requesters, and whether the bank's real-time lane wants it (log 11) (R213). -/
structure BankWants where
  reqs : List Nat
  lane : Bool
  deriving DecidableEq, Repr

/-- The clocks the monitors of R298 watch. -/
inductive Clock where
  | rank | fab | eng | link | slow
  deriving DecidableEq, Repr

/-- What the read-back of an assembled record finds: its 16 words, or a mismatch or uncorrectable error in word `word` (R316, R328). -/
inductive Readback where
  | good
  | bad (word : Nat)
  deriving DecidableEq, Repr

/-- What a checker finds (R295, R302): nothing; a corrected single error of an SRAM word; an uncorrectable error of the named function's
storage (its function index under table 0x18), on the real-time lane or not; a disagreement of voted copies, in the direct path or its
configuration flops or not; a parity error of a pipeline register (R365) (log 7). -/
inductive ScrubFind where
  | clean
  | corrected
  | uncorrectable (func : Nat) (retention realTime : Bool)
  | disagreement (directPath : Bool)
  | parity
  deriving DecidableEq, Repr

/-- How a program or an erase ended, as the memory reports it and the read-back shows it (R246, R261): done, a reported
failure, a read-back mismatch (log 7). -/
inductive NvmRes where
  | good | failed | mismatch
  deriving DecidableEq, Repr

/-- One mirror journal entry, by kind (the table "Journal entry, 16 bytes", R285). -/
inductive JEntry where
  | inst (psn state held dest seq : Nat) (payload : Word)
  | ctx (k : Nat) (stat : Nat) (tgt : W64)
  | base (n : Nat) (stat : Nat) (ofs turns : Word)
  | lock (n : Nat) (held occ burst : Bool) (engine : Nat)
  | cnt (table word entry : Nat) (delta : W64)
  | cfg (table word entry : Nat) (value : Word)
  deriving DecidableEq, Repr

/-- What the delivery checker's ECC finds of an offered entry and the source-state words: nothing; an uncorrectable error that leaves the
entry's stamp intact; one of the stamp itself (R95; log 7). -/
inductive OfferEcc where
  | clean | words | stamp
  deriving DecidableEq, Repr

/-- A received JOURNAL or SNAPSHOT frame: whether its CRC and format are right, its fseq and entries (R282). -/
structure Frame where
  good : Bool
  fseq : BitVec 32
  last : Bool
  entries : List JEntry
  deriving DecidableEq, Repr

/-- A received HEARTBEAT (the table "Control bodies"). -/
structure BeatBody where
  good : Bool
  nak : Bool
  ackseq : BitVec 32
  deriving DecidableEq, Repr

/-- A received HELLO (the table "Control bodies"). -/
structure HelloBody where
  good : Bool
  pairRole : Bool
  served : Bool
  fence : Bool
  epoch : Word
  deriving DecidableEq, Repr

/-- The command language: every row of spec/opcode_table.json, with its operands. Numbers of objects are
natural numbers that WellFormed bounds; data are bit vectors. -/
inductive Instr where
  -- Register conduct (02)
  /-- A plain write on the register port: 25-bit offset, size, and REG_WDATA with the data on the addressed lanes (R35, R348). -/
  | registerWrite (addr : Nat) (size : Size) (data : W64)
  /-- A write through a SET image (R21). -/
  | setWrite (addr : Nat) (size : Size) (data : W64)
  /-- A write through a CLR image (R21). -/
  | clrWrite (addr : Nat) (size : Size) (data : W64)
  /-- A write through a TGL image (R21). -/
  | tglWrite (addr : Nat) (size : Size) (data : W64)
  /-- A read of any size; one of the low word of a 64-bit register latches the high word (R24, R26, R31). -/
  | lowWordRead (read : PortRead)
  /-- A 32-bit write of the low word of a 64-bit register (R32). -/
  | lowWordWrite (addr : Nat) (data : Word)
  /-- A 32-bit write of the high word of a 64-bit register (R32). -/
  | highWordWrite (addr : Nat) (data : Word)
  /-- A write to a lantern-domain register (R34). -/
  | postedWrite (addr : Nat) (size : Size) (data : W64)
  /-- The head of window `win`'s posted-write queue is applied (R34). -/
  | postedWriteApply (win : Nat)
  /-- A write to TBL_SEL of window `win` (R37). -/
  | tblSelWrite (win : Nat) (data : Word)
  /-- A write to TBL_DATAw of window `win` through an image (R37). -/
  | tblDataWrite (win : Nat) (w : Nat) (img : Image) (data : Word)
  /-- TBL_CMD READ in window `win` (R37); the flag says that the read finds an uncorrectable error (log 7). -/
  | tableRead (win : Nat) (ecc : Bool)
  /-- TBL_CMD WRITE in window `win` with its wmask (R38). -/
  | tableWrite (win : Nat) (wmask : BitVec 16)
  /-- The table-port command of window `win` completes (R39). -/
  | tableAccessDone (win : Nat)
  /-- A write to INT_TICK_DIV through window `win` (R58). -/
  | intTickDivWrite (win : Nat) (data : Word)
  /-- A write to INT_DP_CFGA_n (`b` false) or INT_DP_CFGB_n through window `win` (R55). -/
  | dpCfgWrite (win n : Nat) (b : Bool) (data : Word)
  -- Wired intake (03)
  /-- The synchronised pin of input `n` moves to `pin` and is seen there on `samples` consecutive samples (R40). -/
  | wiredInputChange (n : Nat) (pin : Bool) (samples : Nat)
  /-- The minimum edge interval of input `n` expires (R46). -/
  | meiExpiry (n : Nat)
  /-- An intake tick ends (R58). -/
  | intakeTick
  /-- The refill period of input `n` expires (R50). -/
  | stormRefill (n : Nat)
  /-- Input `n`'s pin moves to `pin` while D_CORE is not On (R56). -/
  | wireWakeLatch (n : Nat) (pin : Bool)
  /-- The direct path notifies at target `t` (R96). -/
  | directPathNotify (t : Nat)
  -- Message intake (04)
  /-- A doorbell with payload transfers on port `port` (R65). -/
  | doorbell (port : Nat) (addr : BitVec 21) (data : W64) (srcid : BitVec 12)
  /-- A doorbell without payload transfers on port `port` (R65). -/
  | doorbellNp (port : Nat) (addr : BitVec 21) (data : W64) (srcid : BitVec 12)
  /-- An edge of port `port`'s completion channel with MSGn_CREADY = `ready` (R75). -/
  | completionMessageTransfer (port : Nat) (ready : Bool)
  -- Ranking (05)
  /-- Bank `bank` takes its insertion slot (R92). -/
  | entryInsertion (bank : Nat)
  /-- The usage decay of R84. -/
  | usageDecay
  /-- Bank `bank`'s sweeper visits destination `d` (R89). -/
  | sweeperVisit (bank d : Nat)
  -- Dispatch (06)
  /-- Stage 10 takes the head of destination `d` and stage 12 offers it (R110). -/
  | speculativeOffer (d : Nat)
  /-- Edge 6 of the offer at destination `d`; the flag says that the checker finds an uncorrectable error (R94, R95). -/
  | confirmWindowEnd (d : Nat) (ecc : OfferEcc)
  /-- TGTt_CLAIM in a cycle (R105). -/
  | claim (t : Nat)
  /-- TGTt_COMPLETE in a cycle with TGTt_CSEQ (R107). -/
  | complete (t : Nat) (cseq : BitVec 16)
  /-- The claim timer of destination `d` expires (R114). -/
  | claimTimerExpiry (d : Nat)
  /-- TGTt_UP falls (R115). -/
  | targetDown (t : Nat)
  /-- TGTt_UP rises (R115). -/
  | targetUp (t : Nat)
  /-- The completion work of source `psn` is done (R102). -/
  | completionWorkDone (psn : Nat)
  -- Engines (09)
  /-- An idle engine of pool `p` takes the pool's confirmed offer (R175). -/
  | engineTake (p : Nat)
  /-- The first instruction edge of engine `e` (R177). -/
  | firstInstruction (e : Nat) (chk : PreChk)
  /-- The collector of cluster `c` accepts a completion (R185). -/
  | completionAccept (c : Nat)
  /-- Engine `e`'s cycle count reaches its budget (R181). -/
  | budget (e : Nat)
  /-- The rotating self-test starts on engine `e` (R297). -/
  | selfTest (e : Nat)
  /-- A self-test of engine `e` ends (R297). -/
  | selfTestEnd (e : Nat) (pass : Bool)
  /-- A 20 ms self-test interval ends (R297). -/
  | selfTestInterval
  -- Reflex instructions (10): the engine that issues, the word's fields, what the checkers find
  | nop (e : Nat) (chk : Chk)
  | add (e : Nat) (d a b : BitVec 5) (chk : Chk)
  | sub (e : Nat) (d a b : BitVec 5) (chk : Chk)
  | adds (e : Nat) (d a b : BitVec 5) (chk : Chk)
  | subs (e : Nat) (d a b : BitVec 5) (chk : Chk)
  | and (e : Nat) (d a b : BitVec 5) (chk : Chk)
  | or (e : Nat) (d a b : BitVec 5) (chk : Chk)
  | xor (e : Nat) (d a b : BitVec 5) (chk : Chk)
  | shl (e : Nat) (d a b : BitVec 5) (chk : Chk)
  | shr (e : Nat) (d a b : BitVec 5) (chk : Chk)
  | sra (e : Nat) (d a b : BitVec 5) (chk : Chk)
  | min (e : Nat) (d a b : BitVec 5) (chk : Chk)
  | max (e : Nat) (d a b : BitVec 5) (chk : Chk)
  | abs (e : Nat) (d a : BitVec 5) (chk : Chk)
  | clmp (e : Nat) (d a b : BitVec 5) (chk : Chk)
  | addi (e : Nat) (d a : BitVec 5) (imm : BitVec 16) (chk : Chk)
  | addis (e : Nat) (d a : BitVec 5) (imm : BitVec 16) (chk : Chk)
  | andi (e : Nat) (d a : BitVec 5) (imm : BitVec 16) (chk : Chk)
  | ori (e : Nat) (d a : BitVec 5) (imm : BitVec 16) (chk : Chk)
  | ldi (e : Nat) (d : BitVec 5) (imm : BitVec 16) (chk : Chk)
  | lui (e : Nat) (d : BitVec 5) (imm : BitVec 16) (chk : Chk)
  | shli (e : Nat) (d a : BitVec 5) (k : BitVec 5) (chk : Chk)
  | shri (e : Nat) (d a : BitVec 5) (k : BitVec 5) (chk : Chk)
  | srai (e : Nat) (d a : BitVec 5) (k : BitVec 5) (chk : Chk)
  | mul (e : Nat) (d a b : BitVec 5) (sh : BitVec 5) (rnd : BitVec 2) (chk : Chk)
  | mac (e : Nat) (a b : BitVec 5) (chk : Chk)
  | msu (e : Nat) (a b : BitVec 5) (chk : Chk)
  | accld (e : Nat) (a : BitVec 5) (sh : BitVec 5) (chk : Chk)
  | accadd (e : Nat) (a : BitVec 5) (sh : BitVec 5) (chk : Chk)
  | accrd (e : Nat) (d : BitVec 5) (sh : BitVec 5) (rnd : BitVec 2) (n16 : Bool) (chk : Chk)
  | lds (e : Nat) (d : BitVec 5) (off : BitVec 8) (chk : Chk)
  | ldsx (e : Nat) (d a : BitVec 5) (off : BitVec 8) (chk : Chk)
  | sts (e : Nat) (r : BitVec 5) (off : BitVec 8) (chk : Chk)
  | stsx (e : Nat) (r a : BitVec 5) (off : BitVec 8) (chk : Chk)
  | out (e : Nat) (r a : BitVec 5) (off : BitVec 16) (chk : Chk)
  | outh (e : Nat) (r a : BitVec 5) (off : BitVec 16) (chk : Chk)
  | br (e : Nat) (cond a b : BitVec 5) (off : BitVec 11) (chk : Chk)
  | loop (e : Nat) (body bound : BitVec 8) (chk : Chk)
  | loopr (e : Nat) (a : BitVec 5) (body bound : BitVec 8) (chk : Chk)
  | lock (e : Nat) (n : BitVec 6) (chk : Chk)
  | rel (e : Nat) (chk : Chk)
  | raise (e : Nat) (d a : BitVec 5) (chk : Chk)
  | rds (e : Nat) (d : BitVec 5) (sel : BitVec 5) (chk : Chk)
  | endR (e : Nat) (chk : Chk)
  -- Outbound port, arbiters, locks (11)
  /-- An ENG_CLK edge of the outbound port with OUT_READY = `ready`; `ecc`: the staging entry fails its check (R211). -/
  | outboundTransfer (ready ecc : Bool)
  /-- A unit of an arbiter instance; `wants` names who wants the unit of an SRAM bank (log 11) (R213, R215). -/
  | grantDecision (a : ArbInst) (wants : BankWants)
  /-- A window of an arbiter instance ends (R214). -/
  | windowBoundary (a : ArbInst)
  /-- The stalled burst is torn (R217). -/
  | burstStallTear
  /-- The grant watchdog bites (R220). -/
  | grantWatchdogBite (a : ArbInst)
  /-- The lock-hold watchdog bites on lock `n` (R300). -/
  | lockHoldBite (n : Nat)
  -- Tenancy (12)
  | mapSrc (tenant : Nat)
  | unmapSrc (tenant : Nat)
  | flush (tenant : Nat)
  | flushDone
  -- Phase bases (07)
  /-- A sample is accepted on base `n` (R129). -/
  | feedSample (n : Nat) (ang spd iang : Word) (flg : BitVec 8)
  | missingIndex (n : Nat)
  | feedLoss (n : Nat)
  /-- PHS_CMD zero on base `n` (R142). -/
  | zero (n : Nat)
  /-- PHS_CMD release on base `n` (R142). -/
  | release (n : Nat)
  /-- A write to PHS_CFG of base `n` through window `win` (R135). -/
  | phsCfgWrite (win n : Nat) (data : Word)
  -- Contexts (08)
  /-- The sweep of base `n` takes a crossed launch entry (R154). -/
  | launch (n : Nat)
  /-- The sweep of base `n` takes a crossed release entry (R161). -/
  | releaseOrdered (n : Nat)
  | rebuildEnd (n : Nat)
  /-- The hold limit of occurrence `o` expires (R167). -/
  | holdLimitExpiry (o : Nat)
  | ctxArm (win k : Nat)
  | ctxDisarm (win k : Nat)
  | ctxSquash (win k : Nat)
  -- Start, profiles, NVM (13)
  | restart (prof : BitVec 2)
  | retune (prof : BitVec 2)
  | swap
  | swapTimeout
  | swapCancel
  | save
  | nvmRead
  | nvmProg
  | nvmErase
  | unlock
  | protectionLock
  | openBlock
  | startSequence
  /-- A status poll finds the program or erase no longer busy; `r` is how it ended (R246, R261). -/
  | nvmBusyClear (r : NvmRes)
  | nvmTimeout
  | eraseSuspend
  | eraseResume
  -- Power (14)
  /-- PWR_CMD MODE (R271). -/
  | mode (m : BitVec 3)
  | applyTargets
  | powerManagerRequest (m : BitVec 3)
  | powerManagerRelease
  | domainAnswer
  | strikeAnswerTimeout
  | repitch
  /-- PMD_ACK_d shows the requested state; 5 is the pair of the retention SRAM switch (R273, R277). -/
  | powerAck (d : Nat)
  | domainReturn (d : Nat)
  /-- A START and the address byte `addr` on the I²C pins (R279). -/
  | i2cWake (addr : BitVec 7)
  | wakeIn (level : Bool)
  -- Mirror (15)
  | linkUp
  | linkDown
  | journal (f : Frame)
  | snapshot (f : Frame)
  | heartbeat (b : BeatBody)
  | hello (h : HelloBody)
  | leaveFrame (good : Bool)
  | heartbeatPeriod
  | sendLagExpiry
  | partnerLoss
  | fenceAck
  | fenceTimeout
  | takeoverOpen
  | rejoin
  | leave
  -- Sentinel (16)
  | safe
  | leaveSafe
  | warm
  | pcreq
  /-- SNT_CMD REINIT of function `f` (R306). -/
  | reinit (f : Nat)
  | escalationTimerExpiry (f : Nat)
  | targetReinitEnd (t : Nat)
  | clockFault (c : Clock)
  | scrub (found : ScrubFind)
  | crcRecheck (bad : Bool)
  -- Recorder (17)
  /-- The assembler forms the next record; `back` is what its read-back finds (R316, R328). -/
  | recordAssembly (back : Readback)
  | sideBufferDrain
  | recFreezeWrite (win : Nat) (data : Word)
  | groundsheetWrite
  | armGs
  | clearGs
  | resume
  | recFlush
  | ckpt
  | oldestRec (win : Nat) (area : BitVec 2)
  | newestRec (win : Nat) (area : BitVec 2)
  | readRec (win : Nat) (area : BitVec 2)
  | nextRec (win : Nat) (area : BitVec 2)
  | cursorDone (win : Nat)
  | pfail
  | lastGaspWrite
  | calendarSecond
  /-- The 64-bit write of REC_CAL through window `win`'s posted queue is applied (R330). -/
  | recCalWrite (win : Nat) (data : W64)
  -- Resets and the rest
  | lanternPowerOnReset
  /-- BLK_RST_N asserts and is released with the straps shown (R351, R352). -/
  | blkRstN (profsel : BitVec 2) (pairRole : Bool)
  | nvmTransactionEnd
  | journalSend
  | slowCopyRefresh
  /-- The scrub pass and re-check of a device step end; `found`: a failure was found (R302). -/
  | deviceStepEnd (found : Bool)
  deriving DecidableEq, Repr

end Sys2Proof
end

