-- ==== Sys2Proof/Decode.lean ====
section
/-! DEFINITION. Words of the opcode table. The table gives no row any bits: a command of this block is no word, so no
word spells one (log 21). The words of reflex programs, which engines fetch, are in Machine/ReflexWord.lean. -/

namespace Sys2Proof

/-- The command a table word spells: none, since no row of the table has bits (log 21). -/
def decodeTableWord (_nbits _w : Nat) : Option Instr := none

end Sys2Proof
end

