-- ==== Sys2Proof/Config.lean ====
section
/-! DEFINITION. What the spec leaves open as a value: constants with no body, so that no proof can see
a value of them (log 5). -/

namespace Sys2Proof

/-- The free value number `n`: a word the spec does not state (R37 and R38 read of a word with an
uncorrectable error; R246 bytes of a buffer whose read ended TIMEOUT). The state's counter `free` is the argument and
advances at each use (log 5). -/
opaque Config.freeWord : Nat → Word

end Sys2Proof
end

