-- ==== Sys2Proof/Machine/Bits.lean ====
section
/-! DEFINITION. Bit fields of words, sign extension, byte lanes and CRC-32: the helpers every register and
record layout uses. -/

namespace Sys2Proof.Machine

/-- Field [lo + n - 1 : lo] of a natural number. -/
def nfld (v lo n : Nat) : Nat := v / 2 ^ lo % 2 ^ n

/-- Field [lo + n - 1 : lo] of a word, as a number. -/
def fld (w : Word) (lo n : Nat) : Nat := nfld w.toNat lo n

/-- Bit i of a word. -/
def bit (w : Word) (i : Nat) : Bool := fld w i 1 == 1

/-- The word with field [lo + n - 1 : lo] replaced by the low n bits of v. -/
def setFld (w : Word) (lo n v : Nat) : Word :=
  BitVec.ofNat 32 (w.toNat - fld w lo n * 2 ^ lo + v % 2 ^ n * 2 ^ lo)

/-- A one-bit field. -/
def b2n (b : Bool) : Nat := if b then 1 else 0

/-- A field value in its place: the low n bits of v at bit lo. -/
def at_ (v lo n : Nat) : Nat := v % 2 ^ n * 2 ^ lo

/-- A word from a number. -/
def wd (n : Nat) : Word := BitVec.ofNat 32 n

/-- The low word of a 64-bit value. -/
def lo32 (v : W64) : Word := wd v.toNat

/-- The high word of a 64-bit value. -/
def hi32 (v : W64) : Word := wd (v.toNat / 2 ^ 32)

/-- A 64-bit value from its words. -/
def mk64 (lo hi : Word) : W64 := BitVec.ofNat 64 (lo.toNat + hi.toNat * 2 ^ 32)

/-- A word with the bits of `mask` taken from `new` and the rest from `old` (R25, R38). -/
def merge (old new mask : Word) : Word := (old &&& ~~~mask) ||| (new &&& mask)

/-- A signed value limited to n bits of two's complement (R193). -/
def satInt (n : Nat) (v : Int) : Int :=
  if v > 2 ^ (n - 1) - 1 then 2 ^ (n - 1) - 1 else if v < -(2 ^ (n - 1)) then -(2 ^ (n - 1)) else v

/-- Whether a signed value fits n bits of two's complement. -/
def fitsInt (n : Nat) (v : Int) : Bool := decide (satInt n v = v)

/-- One byte into a CRC-32 register: reflected polynomial of IEEE 802.3 (13 "The image"; log 12). -/
def crcByte (c : BitVec 32) (b : Byte) : BitVec 32 :=
  let step := fun (x : BitVec 32) => if x.getLsbD 0 then (x >>> 1) ^^^ 0xEDB88320#32 else x >>> 1
  step (step (step (step (step (step (step (step (c ^^^ b.setWidth 32))))))))

/-- CRC-32 with initial value 0xFFFF_FFFF and final inversion (13 "The image"). -/
def crc32 (bs : List Byte) : Word := ~~~(bs.foldl crcByte 0xFFFFFFFF#32)

/-- The four bytes of a word, little-endian. -/
def wordBytes (w : Word) : List Byte :=
  [w.setWidth 8, (w >>> 8).setWidth 8, (w >>> 16).setWidth 8, (w >>> 24).setWidth 8]

/-- The bytes of a list of words, little-endian. -/
def bytesOf (ws : List Word) : List Byte := ws.flatMap wordBytes

/-- n little-endian bytes of a number. -/
def leBytes : Nat → Nat → List Byte
  | 0, _ => []
  | n + 1, v => BitVec.ofNat 8 v :: leBytes n (v / 256)

/-- The number n little-endian bytes hold. -/
def leNat : List Byte → Nat
  | [] => 0
  | b :: t => b.toNat + 256 * leNat t

/-- The words of a byte list, little-endian. -/
def wordsOf : List Byte → List Word
  | a :: b :: c :: d :: t => wd (leNat [a, b, c, d]) :: wordsOf t
  | [] => []
  | rest => [wd (leNat rest)]

/-- Ceiling division. -/
def cdiv (a b : Nat) : Nat := (a + b - 1) / b

/-- A value whose field value 0 acts as 1. -/
def orOne (n : Nat) : Nat := if n = 0 then 1 else n

end Sys2Proof.Machine
end

