-- ==== Sys2Proof/Machine/RegMap.lean ====
section
/-! DEFINITION. The register index of the address map (R344) and the write masks and reset values of the table
words (R345): what a plain write reaches, what an alias reaches, what each word reads after reset. -/

namespace Sys2Proof.Machine

/-- How a register answers a write (R10, R22, R25, R31, R32). -/
inductive RegKind where
  | cfg      -- RW fields owned S, HS or HC
  | cnt      -- a 32-bit CNT register
  | ro       -- RO fields only
  | cmd      -- a command or commit register, or one with a WO field
  | lowWord  -- low word of a 64-bit register
  | highWord -- high word of a 64-bit register
  deriving DecidableEq, Repr

/-- A row of the register index. -/
structure RegRow where
  lo : Nat
  stride : Nat
  n : Nat
  kind : RegKind
  reset : Word
  rw : Word := 0
  win : Bool := false
  lan : Bool := false
  kept : Bool := false
  deriving DecidableEq, Repr

/-- A single register. -/
def reg1 (lo : Nat) (k : RegKind) (reset rw : Word) : RegRow := { lo := lo, stride := 4, n := 1, kind := k, reset := reset, rw := rw }

/-- A run of equal registers. -/
def regN (lo stride n : Nat) (k : RegKind) (reset rw : Word) : RegRow :=
  { lo := lo, stride := stride, n := n, kind := k, reset := reset, rw := rw }

/-- A run of counters (CNT, RW). -/
def cntN (lo n : Nat) : RegRow := regN lo 4 n .cnt 0 0xFFFFFFFF

/-- A kept lantern-domain register (L). -/
def lanN (lo stride n : Nat) (k : RegKind) (reset rw : Word) : RegRow :=
  { lo := lo, stride := stride, n := n, kind := k, reset := reset, rw := rw, lan := true, kept := true }

/-- A per-window register (W). -/
def winN (lo n : Nat) (k : RegKind) (rw : Word) : RegRow :=
  { lo := lo, stride := 4, n := n, kind := k, reset := 0, rw := rw, win := true }

/-- Identity and capability page (R342). -/
def capRows : List RegRow :=
  [reg1 0x0000 .ro 0x4B470005 0, reg1 0x0004 .ro 0x00010100 0, winN 0x0008 1 .ro 0,
   reg1 0x0010 .ro 0x00400800 0, reg1 0x0014 .ro 0x5A404000 0, reg1 0x0018 .ro 0x48000800 0,
   reg1 0x001C .ro 0x5A005800 0, reg1 0x0020 .ro 0x00101000 0, reg1 0x0024 .ro 0x00160400 0,
   reg1 0x0030 .ro 0x40200200 0, reg1 0x0034 .ro 0x08010000 0, reg1 0x0038 .ro 0x02001000 0,
   reg1 0x0040 .ro 0x20400200 0, reg1 0x0044 .ro 0x60000040 0, reg1 0x0050 .ro 0x80000100 0,
   reg1 0x0054 .ro 0x05200040 0, reg1 0x0060 .ro 0x01001800 0, reg1 0x0064 .ro 0x00010000 0,
   reg1 0x0070 .ro 0x000000FF 0, reg1 0x0074 .ro 0x03E80C80 0, winN 0x0100 12 .ro 0]

/-- Wired intake, message intake, ranking and dispatch pages. -/
def coreRows : List RegRow :=
  [reg1 0x0200 .cfg 0x00000C7F 0x000FFFFF, reg1 0x0204 .ro 0 0, reg1 0x0208 .ro 0 0,
   regN 0x0400 8 64 .cfg 0 0x01FFFF01, regN 0x0404 8 64 .cfg 0 0x00FF7FFF,
   reg1 0x0600 .cfg 0 0x7, reg1 0x0604 .ro 0 0, reg1 0x0608 .ro 0 0, cntN 0x0610 6, cntN 0x0630 6,
   reg1 0x0800 .cfg 0x00100830 0x001F0F3F, reg1 0x0804 .ro 0 0, reg1 0x0808 .ro 0 0, cntN 0x0810 4,
   reg1 0x0820 .ro 0 0,
   reg1 0x0C00 .ro 0 0, cntN 0x0C10 4, reg1 0x0C20 .ro 0 0, regN 0x0D00 4 64 .cfg 0x01FF1000 0x0000FFFF]

/-- Bases, contexts, reflex and outbound pages. -/
def schedRows : List RegRow :=
  [regN 0x1000 0x40 16 .cfg 0x00400000 0x0FFFFF7F, regN 0x1004 0x40 16 .cfg 0x00147AE1 0xFFFFFFFF,
   regN 0x1008 0x40 16 .cfg 0 0xFFFFFFFF, regN 0x100C 0x40 16 .cfg 0x01000000 0x7FFFFFFF,
   regN 0x1010 0x40 16 .cfg 0 0xFFFFFFFF, regN 0x1014 0x40 16 .cfg 0x00200000 0x7FFFFFFF,
   regN 0x1018 0x40 16 .cfg 0 0xFFFFFFFF, regN 0x101C 0x40 16 .cmd 0 0,
   regN 0x1020 0x40 16 .lowWord 0 0, regN 0x1024 0x40 16 .highWord 0 0, regN 0x1028 0x40 16 .ro 0 0,
   regN 0x102C 0x40 16 .ro 0 0, regN 0x1030 0x40 16 .ro 0 0, regN 0x1034 0x40 16 .ro 0 0,
   regN 0x1038 0x40 16 .cfg 0x100 0x7FFFFFFF, regN 0x103C 0x40 16 .ro 0 0,
   reg1 0x1400 .cfg 0 0x3, reg1 0x1404 .ro 0 0, reg1 0x1408 .cmd 0 0, reg1 0x140C .ro 0 0, cntN 0x1410 2,
   regN 0x1440 4 16 .ro 0 0,
   reg1 0x1800 .cfg 0 0x1, reg1 0x1804 .ro 0 0, reg1 0x1808 .ro 0 0, cntN 0x180C 1, regN 0x1840 4 32 .ro 0 0,
   reg1 0x1C00 .cfg 0 0x7, regN 0x1C04 4 4 .ro 0 0, cntN 0x1C20 5]

/-- Tenancy and loader pages. -/
def ldrRows : List RegRow :=
  [reg1 0x2000 .cfg 0 0x7FFF7FFF, reg1 0x2004 .cmd 0 0, reg1 0x2008 .ro 0 0, reg1 0x200C .ro 0 0,
   reg1 0x2400 .cmd 0 0, reg1 0x2404 .cfg 0 0xFFFFFFFF, reg1 0x2408 .cfg 0 0x1FF, reg1 0x240C .ro 0 0,
   reg1 0x2410 .ro 0 0, reg1 0x2414 .ro 0 0, reg1 0x2418 .ro 0 0, reg1 0x241C .cfg 0x00300000 0x0FFF001F,
   reg1 0x2420 .cfg 0 0xFFFFFFFF, { reg1 0x2424 .ro 0 0 with kept := true }, reg1 0x2428 .ro 0 0,
   regN 0x2440 4 8 .cmd 0 0xFFFFFFFF, cntN 0x2460 6]

/-- Power page: every register is a slow-copy register. -/
def pwrRows : List RegRow :=
  [lanN 0x2800 4 1 .cmd 0 0, lanN 0x2804 4 1 .ro 0 0, lanN 0x2808 4 1 .cfg 0 0x000103FF,
   lanN 0x280C 4 2 .cfg 0 0xFFFFFFFF, lanN 0x2814 4 3 .ro 0 0, lanN 0x2820 4 1 .ro 0 0,
   lanN 0x2824 4 1 .cfg 0x20 0xFF, lanN 0x2828 4 1 .cfg 0xFFFFFFFF 0xFFFFFFFF, lanN 0x282C 4 1 .cfg 0 0x7F,
   lanN 0x2830 4 1 .cfg 0 0xFF, lanN 0x2834 4 1 .ro 0 0, lanN 0x2838 4 1 .cfg 0 0x1,
   lanN 0x2840 4 4 .cfg 0 0xFFFFFFFF, lanN 0x2850 4 3 .ro 0 0, lanN 0x2860 4 3 .cnt 0 0xFFFFFFFF,
   lanN 0x2880 4 1 .cfg 0x00080201 0x00FFFFFF, lanN 0x2884 4 1 .cfg 0x00020201 0x00FFFFFF,
   lanN 0x2888 4 1 .cfg 0x00100401 0x00FFFFFF, lanN 0x288C 4 2 .cfg 0x00020201 0x00FFFFFF,
   lanN 0x28A0 4 32 .cfg 0x00020201 0x00FFFFFF]

/-- Mirror, Sentinel, recorder and table-port pages. -/
def topRows : List RegRow :=
  [reg1 0x2C00 .cfg 0x3E 0xFF, reg1 0x2C04 .cfg 0x03264432 0x0FFFF7FF, reg1 0x2C08 .ro 0 0, reg1 0x2C0C .ro 0 0,
   reg1 0x2C10 .cmd 0 0, reg1 0x2C14 .ro 0 0, cntN 0x2C20 10,
   reg1 0x3000 .cfg 0x70 0x7F, { reg1 0x3004 .ro 0 0 with kept := true }, reg1 0x3008 .cmd 0 0, reg1 0x300C .ro 0 0,
   reg1 0x3010 .cfg 0x00320032 0x0FFF0FFF, reg1 0x3014 .cfg 0x003101F4 0x00FFFFFF,
   reg1 0x3018 .cfg 0x04000010 0xFFFFFFFF, { reg1 0x301C .cfg 0x2800 0xFFFF with kept := true },
   { regN 0x3020 4 2 .cfg 0 0xFFFFFFFF with kept := true }, { reg1 0x3028 .cfg 0x3 0x7 with kept := true },
   cntN 0x3044 18, cntN 0x30A0 7,
   winN 0x33C0 5 .cnt 0xFFFFFFFF, winN 0x33D4 2 .ro 0,
   reg1 0x3400 .cfg 0x6 0x7, reg1 0x3404 .ro 0 0, reg1 0x3408 .cfg 0 0x1, reg1 0x340C .cmd 0 0,
   reg1 0x3410 .ro 0 0, reg1 0x3414 .ro 0 0, reg1 0x3418 .cfg 0xE10 0xFFFF, cntN 0x3420 10,
   winN 0x3480 1 .cfg 0xFFFFFFFF, winN 0x3484 1 .cmd 0, winN 0x3488 1 .ro 0, winN 0x34C0 16 .ro 0,
   lanN 0x3500 4 1 .lowWord 0 0xFFFFFFFF, lanN 0x3504 4 1 .highWord 0 0x0000FFFF, lanN 0x3508 4 3 .ro 0 0,
   winN 0x3800 1 .cfg 0xFFFFFFFF, winN 0x3804 1 .cmd 0, winN 0x3808 1 .ro 0, winN 0x3840 16 .cfg 0xFFFFFFFF]

/-- The register index (R344). -/
def regIndex : List RegRow := capRows ++ coreRows ++ schedRows ++ ldrRows ++ pwrRows ++ topRows

/-- Whether an offset belongs to a row. -/
def RegRow.has (r : RegRow) (off : Nat) : Bool :=
  decide (r.lo ≤ off) && decide ((off - r.lo) % r.stride = 0) && decide ((off - r.lo) / r.stride < r.n)

/-- The rows of the page part an offset lies in. -/
def pageRows (off : Nat) : List RegRow :=
  if off < 0x0200 then capRows else if off < 0x1000 then coreRows else if off < 0x2000 then schedRows
  else if off < 0x2800 then ldrRows else if off < 0x2C00 then pwrRows else topRows

/-- The register at a window offset (image bits removed), when one is listed. -/
def regAt (off : Nat) : Option RegRow := (pageRows off).find? (fun r => r.has off)

/-- The word a register reads after reset, lantern power-on included (R11, R344). -/
def regReset (off : Nat) : Word := match regAt off with
  | some r => r.reset
  | none => 0

/-- Key of a register's storage: shared registers once, W registers per window (R341). -/
def regKey (win off : Nat) : Nat := match regAt off with
  | some r => if r.win then win * 0x4000 + off else off
  | none => off

/-- Power domain of a register (the table "Register domain by page", R29): 0 D_CORE, 1 D_SCHED, 3 D_LINK, 4 D_NVM,
5 D_LANTERN, 8 + n D_ENGn. -/
def regDomain (off : Nat) : Nat :=
  if off < 0x1000 then 0 else if off < 0x1800 then 1
  else if 0x1840 ≤ off ∧ off < 0x18C0 then 8 + (off - 0x1840) / 4
  else if off < 0x2400 then 0 else if off < 0x2800 then 4 else if off < 0x2C00 then 5
  else if off < 0x3000 then 3
  else if 0x33C0 ≤ off ∧ off ≤ 0x33D8 then 5
  else if 0x3500 ≤ off ∧ off ≤ 0x3510 then 5 else 0

/-- Entries of a table (R345); 0 for an identifier that names none. -/
def tblCount : Nat → Nat
  | 0x01 => 23104 | 0x02 => 2048 | 0x03 => 16384 | 0x04 => 256 | 0x05 => 576 | 0x06 => 256 | 0x07 => 64
  | 0x08 => 576 | 0x09 => 16 | 0x0A => 4096 | 0x0B => 512 | 0x0C => 64 | 0x0D => 4096 | 0x0E => 23104
  | 0x0F => 4096 | 0x10 => 8192 | 0x11 => 16 | 0x12 => 64 | 0x13 => 192 | 0x14 => 256 | 0x15 => 2048
  | 0x16 => 8192 | 0x17 => 4 | 0x18 => 5409 | 0x19 => 23104 | 0x1A => 256 | 0x1B => 256 | 0x1C => 16
  | _ => 0

/-- Whether an entry of a table is implemented (R345; table 0x13: 33, 8 and 4 requesters). -/
def tblHas (tid idx : Nat) : Bool :=
  decide (idx < tblCount tid) &&
  (if tid = 0x13 then (if idx < 64 then decide (idx < 33) else if idx < 128 then decide (idx < 72) else decide (idx < 132)) else true)

/-- Domain of a table (R345). -/
def tblDomain : Nat → Nat
  | 0x09 => 1 | 0x0A => 1 | 0x0B => 0 | 0x11 => 0 | 0x13 => 0 | 0x17 => 4 | 0x18 => 0 | _ => 2

/-- Key of a table word's storage. -/
def tKey (tid idx w : Nat) : Nat := (tid * 0x8000 + idx) * 16 + w

/-- Reset weight of an arbiter requester (the table "Arbiter instances", R213). -/
def weightReset (idx : Nat) : Nat :=
  if idx < 32 then 8 else if idx = 64 then 128
  else if idx = 65 then 256 else if idx = 66 then 256 else if idx = 67 then 256
  else if idx = 68 then 64 else if idx = 69 then 64
  else if idx = 128 then 8192 else if idx = 129 then 4096 else if idx = 130 then 4096 else 0

/-- The word a table entry holds after reset, before loading (the Reset columns of the tables). -/
def tblReset (k : Nat) : Word :=
  let w := k % 16
  let idx := k / 16 % 0x8000
  match k / 0x80000 with
  | 0x01 => if w = 2 then 0x0000FF03 else if w = 4 then wd idx else 0
  | 0x02 => if w = 0 then 0x4 else 0
  | 0x03 => if w = 0 then 0x1E else 0
  | 0x04 => if w = 0 then 0x100 else 0
  | 0x05 => if w = 0 then 0x4 else 0
  | 0x08 => if w = 0 then 0x3246 else 0
  | 0x13 => if w = 0 then wd (weightReset idx) else 0
  | 0x14 => if w = 0 then 0x100 else if w = 1 then 0x000FFFFF else 0
  | _ => 0

/-- Whether a table word is a counter (the counter words of the table chapters). -/
def isCnt (tid w : Nat) : Bool :=
  match tid with
  | 0x01 => decide (6 ≤ w) && decide (w ≤ 9)
  | 0x02 => decide (4 ≤ w) && decide (w ≤ 9)
  | 0x03 => decide (3 ≤ w) && decide (w ≤ 6)
  | 0x04 => decide (w = 2)
  | 0x05 => decide (5 ≤ w) && decide (w ≤ 8)
  | 0x08 => decide (3 ≤ w) && decide (w ≤ 8)
  | 0x09 => decide (w ≤ 9)
  | 0x0A => decide (10 ≤ w)
  | 0x0B => decide (3 ≤ w) && decide (w ≤ 6)
  | 0x0C => decide (2 ≤ w) && decide (w ≤ 3)
  | 0x12 => decide (2 ≤ w) && decide (w ≤ 4)
  | 0x13 => decide (2 ≤ w) && decide (w ≤ 3)
  | 0x14 => decide (12 ≤ w) && decide (w ≤ 14)
  | 0x18 => decide (2 ≤ w) && decide (w ≤ 3)
  | 0x19 => decide (w = 0)
  | _ => false

/-- The bits of a table word that a table-port WRITE may change: fields whose access is RW (R38). -/
def tblMask (tid w : Nat) : Word :=
  match tid with
  | 0x01 => if w = 0 then 0x3FFF else if w = 2 then 0x00FFFF03 else if 6 ≤ w ∧ w ≤ 9 then 0xFFFFFFFF else 0
  | 0x02 => if w = 0 then 0xFFFF01FF else if w = 1 then 0x03FFFFFF else if w = 2 then 0xFFFFFFFF
            else if 4 ≤ w ∧ w ≤ 9 then 0xFFFFFFFF else 0
  | 0x03 => if w = 0 then 0x7F else if 3 ≤ w ∧ w ≤ 6 then 0xFFFFFFFF else 0
  | 0x04 => if w = 0 then 0x1FFFF else if w = 2 then 0xFFFFFFFF else 0
  | 0x05 => if w = 0 then 0xF else if 5 ≤ w ∧ w ≤ 8 then 0xFFFFFFFF else 0
  | 0x07 => 0xFFFFFFFF
  | 0x08 => if w = 0 then 0x000FFFF7 else if 3 ≤ w ∧ w ≤ 8 then 0xFFFFFFFF else 0
  | 0x09 => if w ≤ 9 then 0xFFFFFFFF else 0
  | 0x0A => if w = 0 then 0x3FF else if w ≤ 3 then 0xFFFFFFFF else if w ≤ 5 then 0x7FFFFFFF else if w = 6 then 0xFFF
            else if 10 ≤ w then 0xFFFFFFFF else 0
  | 0x0B => if w = 0 then 0x7F else if 3 ≤ w ∧ w ≤ 6 then 0xFFFFFFFF else 0
  | 0x0C => if w = 0 then 1 else if w = 2 ∨ w = 3 then 0xFFFFFFFF else 0
  | 0x0D => if w = 0 then 0x1FFFFFFF else if w = 1 then 0x1FFFFF else if w = 2 then 0x3FFF else if w = 3 then 0xFFFFFFFF else 0
  | 0x0E => if w = 0 then 0x1FFF else 0
  | 0x0F => 0xFFFFFFFF
  | 0x10 => 0xFFFFFFFF
  | 0x11 => if w ≤ 3 then 0xFFFFFFFF else if w = 4 then 1 else 0
  | 0x12 => if w = 1 then 7 else if 2 ≤ w ∧ w ≤ 4 then 0xFFFFFFFF else if 6 ≤ w then 0xFFFFFFFF else 0
  | 0x13 => if w = 0 then 0xFFFF else if w = 2 ∨ w = 3 then 0xFFFFFFFF else 0
  | 0x14 => if w = 0 then 0xFF01 else if w = 1 then 0xFFFFF else if w = 2 then 0xFFFF7FFF
            else if 3 ≤ w ∧ w ≤ 5 then 0x1FFF0FFF else if w = 6 then 0x03FF01FF
            else if w = 7 ∨ w = 8 then 0xFFFFFFFF else if w = 9 then 0xBFBFBFBF
            else if w = 10 then 0x3FFFF else if 12 ≤ w ∧ w ≤ 14 then 0xFFFFFFFF else 0
  | 0x16 => 0xC1FF
  | 0x17 => 0xFFFFFFFF
  | 0x18 => if w = 2 ∨ w = 3 then 0xFFFFFFFF else 0
  | _ => 0

end Sys2Proof.Machine
end

