-- ==== Sys2Proof/Machine/SMap.lean ====
section
/-! DEFINITION. Sparse maps: sorted lists of (key, value), no entry equal to the default at its key, so that
equal maps are equal data. Every large table of the block is one of these. -/

namespace Sys2Proof.Machine

/-- A sparse map from natural-number keys. -/
abbrev SMap (α : Type) := List (Nat × α)

/-- The entry of a key, when one is listed. -/
def mFind {α : Type} : SMap α → Nat → Option α
  | [], _ => none
  | (j, a) :: t, k => if k = j then some a else mFind t k

/-- The map without any entry of a key. -/
def mErase {α : Type} : SMap α → Nat → SMap α
  | [], _ => []
  | (j, a) :: t, k => if k = j then mErase t k else (j, a) :: mErase t k

/-- The map with an entry put in its sorted place. -/
def mPut {α : Type} : SMap α → Nat → α → SMap α
  | [], k, v => [(k, v)]
  | (j, a) :: t, k, v =>
    if k < j then (k, v) :: (j, a) :: t else if k = j then (k, v) :: t else (j, a) :: mPut t k v

/-- The value at a key: the listed one, or the default there. -/
def mGet {α : Type} (d : Nat → α) (m : SMap α) (k : Nat) : α := (mFind m k).getD (d k)

/-- The map with the value at a key replaced; the default is not listed. -/
def mSet {α : Type} [DecidableEq α] (d : Nat → α) (m : SMap α) (k : Nat) (v : α) : SMap α :=
  if v = d k then mErase m k else mPut m k v

/-- Keys strictly rising from a bound. -/
def mSorted {α : Type} : Nat → SMap α → Bool
  | _, [] => true
  | lo, (j, _) :: t => (decide (lo ≤ j)) && mSorted (j + 1) t

/-- No entry equals the default at its key. -/
def mSparse {α : Type} [DecidableEq α] (d : Nat → α) : SMap α → Bool
  | [] => true
  | (j, a) :: t => (decide (a ≠ d j)) && mSparse d t

/-- The canonical form of a sparse map. -/
def mWf {α : Type} [DecidableEq α] (d : Nat → α) (m : SMap α) : Bool := mSorted 0 m && mSparse d m

/-- The keys of a map. -/
def mKeys {α : Type} (m : SMap α) : List Nat := m.map Prod.fst

/-- The keys listed in either of two maps, each once. -/
def mKeys2 {α : Type} (m n : SMap α) : List Nat :=
  mKeys m ++ (mKeys n).filter (fun k => !(mKeys m).contains k)

/-- Keep `d0`'s entries at the keys `keep` accepts; every other key falls back to its default. -/
def mKeep {α : Type} (keep : Nat → Bool) (m : SMap α) : SMap α := m.filter (fun p => keep p.1)

end Sys2Proof.Machine
end

