-- ==== Sys2Proof/Machine/State.lean ====
section
/-! DEFINITION. The state of the block, as plain data: every register, table word, buffer, queue, sequencer and pin
the spec gives Ronhorn, and the queue of commands that wait. -/

namespace Sys2Proof.Machine

/-- The reasons the block stops with a fault. The spec gives the block no such stop: every fault it describes is a
count, a response or a recovery step. The one constructor is raised by nobody (safe: a claim about it is empty). -/
inductive Fault where
  | none_
  deriving DecidableEq, Repr

/-- The reasons a command is refused. `notModelled` stands in exec's arms of commands without a meaning; every
command has its meaning, so nobody raises it (safe). -/
inductive Refusal where
  | notModelled (mnemonic : String)
  deriving DecidableEq, Repr

/-! ## The register port (02, 19) -/

/-- A response of the register port: REG_RID, REG_RDATA, REG_RERR and REG_RCODE (R348). -/
structure Resp where
  id : BitVec 8 := 0
  data : W64 := 0
  err : Bool := false
  code : Nat := 0
  deriving DecidableEq, Repr

/-- An access of the register port, which it holds while the unit it reaches is busy (R39, R233, R348). `ecc` tells that a
table-port READ it commands finds an uncorrectable error (log 7), `id` is its tag REG_ID (log 124). -/
structure PortAccess where
  addr : Nat
  size : Size
  wr : Bool
  data : W64
  ecc : Bool := false
  id : BitVec 8 := 0
  deriving DecidableEq, Repr

/-- A posted lantern write (R34). -/
structure Posted where
  off : Nat
  img : Image
  data : Word
  mask : Word
  hi : Option Word := none
  deriving DecidableEq, Repr

/-- What one window owns beside its W registers (R31, R32, R34, R37, R39, R320). `held` are the accesses that wait for its table
port, `recHeld` those that wait for its recorder cursor; `appliedAt` is the SLOW_CLK edge at which a posted write was last
applied. -/
structure Win where
  shadow : Option (Nat × Word) := none
  wstage : Option (Nat × Word) := none
  posted : List Posted := []
  postedAt : Nat := 0
  snap : SMap Word := []
  stage : SMap Word := []
  busy : Bool := false
  busyWr : Bool := false
  snapValid : Bool := false
  held : List PortAccess := []
  appliedAt : Option Nat := none
  recHeld : List PortAccess := []
  recBusy : Bool := false
  recFound : Bool := false
  recWin : SMap Word := []
  deriving DecidableEq, Repr

/-- A feed sample: ANG, SPD, IANG and FLG (R127). -/
structure FeedSample where
  ang : Word
  spd : Word
  iang : Word
  flg : BitVec 8
  deriving DecidableEq, Repr

/-- What comes to a base at an edge: the sample it accepts, a feed timeout, a missing index (R136, R140, R143). -/
structure PhsEdge where
  sample : Option FeedSample := none
  loss : Bool := false
  noIndex : Bool := false
  deriving DecidableEq, Repr

/-- What hardware did at the present edge, where a software write of that edge has to respect it (R8, R32, R35, R178). `cnt` and
`tcnt` are the increments of register and table counters, `lcnt` those of lantern counters since the SLOW_CLK edge; `hc` the
table words whose en hardware cleared, `hs` those it wrote; `slots` the engine writes of slot words since the ENG_CLK edge:
the word before them, then each writer with its word, ascending; `loads` the destinations' loads as they stood before the
edge (R118), `ecfg` the RFX_ECFG words changed at the edge, as they stood before it (R175); `rel` the occurrences whose release was
ordered at the edge, in order (R161, R162), `issues` the instructions whose engines' RAISE is judged at the edge and that issue once it is (R205), `arms` the arms that wait for the edge's signals and sweep: a context with the angle it is
armed from, or with none for a commit of its compare (R150, R168), `phs` what comes to the bases at the edge (R143), `takes` the engines that took a
delivery at the edge (R176), `reinits` the functions that REINIT named at it (R306); `swap` tells that a SWAP acts as it ends (R259); `ports` are the message ports that have transferred a
doorbell at the present FAB_CLK edge (R62, R73; log 112), `moves` the entries a claim timer's expiry freed for re-selection,
each with its target (R118, R120). -/
structure Edge where
  cnt : SMap Nat := []
  tcnt : SMap Nat := []
  lcnt : SMap Nat := []
  hc : List Nat := []
  hs : List Nat := []
  slots : SMap (Word × List (Nat × Word)) := []
  loads : SMap Nat := []
  ecfg : SMap Word := []
  rel : List Nat := []
  arms : List (Nat × Option W64) := []
  phs : SMap PhsEdge := []
  takes : List Nat := []
  issues : List Instr := []
  reinits : List Nat := []
  swap : Bool := false
  ports : List Nat := []
  moves : List (Nat × Nat) := []
  deriving DecidableEq, Repr

/-! ## Intake (03, 04) -/

/-- The dynamic state of a wired input (R40-R51, R122). -/
structure InSt where
  pin : Bool := false
  level : Bool := false
  passRank : Nat := 0
  passTick : Nat := 0
  meiOn : Bool := false
  passLevel : Bool := false
  coal : Bool := false
  stuckCnt : Nat := 0
  stuck : Bool := false
  tokens : Nat := 0
  refillTick : Nat := 0
  retry : Bool := false
  seq0 : BitVec 16 := 0
  deriving DecidableEq, Repr

/-- A payload pool entry (R71). `quota` is the tenant whose quota it draws on, when a tenant page took it (R72). -/
structure PoolEntry where
  payload : Word
  srcid : BitVec 12
  port : Nat
  cmp : Bool
  np : Bool
  stw : Bool
  cookie : BitVec 8
  send : Bool
  quota : Option Nat
  deriving DecidableEq, Repr

/-- A queued instance of a source: its payload, pool entry, LATE mark and run-ahead occurrence (R70, R154, R157). -/
structure Inst where
  payload : Word := 0
  entry : Option PoolEntry := none
  late : Bool := false
  occ : Option Nat := none
  deriving DecidableEq, Repr

/-- A doorbell as the intake stages see it; `src` is the message source stage 4 took it to (R65). -/
structure Bell where
  port : Nat
  addr : BitVec 21
  data : W64
  srcid : BitVec 12
  src : Option Nat := none
  deriving DecidableEq, Repr

/-- A completion message (R75). -/
structure CMsg where
  dest : BitVec 12
  data : W64
  deriving DecidableEq, Repr

/-! ## Ranking and dispatch (05, 06) -/

/-- An ordering key, field by field (R81). -/
structure Key where
  cls : Nat := 0
  prio : Nat := 0
  share : Nat := 0
  stamp : BitVec 24 := 0
  psn : Nat := 0
  deriving DecidableEq, Repr

/-- The five instance states (R100). -/
inductive SrcState where
  | idle | pending | staged | active | completing
  deriving DecidableEq, Repr

/-- Where the entry of a source's oldest instance stands (R80, R91, R109, R16). -/
inductive Place where
  | none
  | pipe       -- stages 1-5
  | wait6      -- waiting at stage 6 for its bank's slot
  | unshelve   -- a sweeper re-insertion waiting at stage 6
  | slotted (unshelved : Bool)  -- its slot taken, to be placed at stage 7
  | heap
  | shelf
  | popped     -- taken at stage 10, its offer not yet shown
  | offer
  | direct
  deriving DecidableEq, Repr

/-- What an insertion keeps of an earlier entry: its stamp (R90, R95), or its age (R121), and its share (R90, R121). -/
structure Kept where
  stamp : Option (BitVec 24) := none
  age : Option Nat := none
  share : Option Nat := none
  deriving DecidableEq, Repr

/-- The dynamic state of a source (R100-R123, R363, R364). `stage` is the pipeline stage of an entry at stages 1 to 5, `slot` the
edge at which it took its bank's slot, `keep` what its insertion keeps, `pendAt` the edge at which its instance became Pending
(R91, R92), `oldKey` tells that RNK_SCFG was written after stage 10 had taken the entry (R90). `endAt` is the edge at which an accepted completion ends the instance, and whether as a discard (R184, R185). `told` is the vtag and tenant a Class 0 instance was notified with
(R55). -/
structure Src where
  st : SrcState := .idle
  q : List Inst := []
  place : Place := .none
  since : Nat := 0
  pendAt : Nat := 0
  stage : Nat := 0
  slot : Nat := 0
  settled : Nat := 0
  key : Key := {}
  keep : Kept := {}
  dst : Nat := 0
  seq : BitVec 16 := 0
  last : Option Nat := none
  outer : Option Nat := none
  endAt : Option (Nat × Bool) := none
  inner : Bool := false
  replay : Bool := false
  flushed : Bool := false
  kept : Bool := false
  doom : Bool := false
  oldKey : Bool := false
  told : Option (Nat × Nat) := none
  deriving DecidableEq, Repr

/-- An offer shown or formed at a destination (R103, R104, R109). `chk` is the reason the delivery checker fails it for, 0 for none,
and `beaten` the result of the final comparison of edge 3 (R94, R95). -/
structure Offer where
  psn : Nat
  cls : Nat
  prio : Nat
  vtag : Nat
  tenant : Nat
  seq : BitVec 16
  replay : Bool
  start : Nat
  conf : Option Nat := none
  chk : Nat := 0
  beaten : Bool := false
  deriving DecidableEq, Repr

/-- A destination: a target port or an engine pool (R86-R89, R109-R116). `claimAt` is the edge of its last accepted CLAIM, and
`expired` tells that a pool's claim timer has expired at this edge (R107, R112, R116). `form` is the entry stages 10 and 11 hold, or the held
entry they show again, with the first edge its offer may be shown at (R91, R112). -/
structure Dst where
  heap : List Nat := []
  shelf : List Nat := []
  best : Option Key := none
  mark : Bool := false
  stamp : BitVec 24 := 0
  offer : Option Offer := none
  parked : Option Offer := none
  form : Option (Nat × Nat) := none
  c0 : Option Offer := none
  nest : List Nat := []
  timer : Option Nat := none
  retractAt : Option Nat := none
  lostAt : Option Nat := none
  claimAt : Option Nat := none
  expired : Bool := false
  upPin : Bool := false
  downFrom : Option Nat := none
  deriving DecidableEq, Repr

/-- A heap bank: the edge of its last insertion slot, the destination its round served last, the sweeper's last destination and the
edge its visit ended at (R89, R92). The first round starts after destination 0 (DESIGN CHOICE, log 92). -/
structure Bank where
  slotAt : Option Nat := none
  served : Nat := 0
  swept : Nat := 0
  sweptAt : Nat := 0
  deriving DecidableEq, Repr

/-! ## Phase bases and contexts (07, 08) -/

/-- The states of a base (R135). -/
inductive BaseSt where
  | disabled | held | unref | run
  deriving DecidableEq, Repr

/-- A direction of travel (R134). -/
inductive Dir where
  | still | fwd | rev
  deriving DecidableEq, Repr

/-- The signals SQUASH, HELD, REVERSE, DISCONT and RUN a base raises at one edge (R144). -/
structure Sigs where
  squash : Bool := false
  held : Bool := false
  reverse : Bool := false
  discont : Bool := false
  run : Bool := false
  deriving DecidableEq, Repr

/-- A phase base (R126-R143). `sig` are the signals of the present edge, which reach the scheduler at its end (R143). -/
structure Base where
  st : BaseSt := .disabled
  ai : Angle := 0
  ap : W64 := 0
  vel : Word := 0
  dir : Dir := .still
  lastRev : Bool := false
  fheld : Bool := false
  ihold : Bool := false
  hback : Bool := false
  refd : Bool := false
  lastValid : Nat := 0
  lastAng : Option Word := none
  fseq : Option (BitVec 4) := none
  aidx : Angle := 0
  slot : Nat := 0
  rebuild : Option (W64 × Nat × Nat) := none
  sig : Sigs := {}
  waitArms : List (Nat × W64) := []
  deriving DecidableEq, Repr

/-- A launch entry on a wheel (R148, R149, R151). `behind` tells that it was placed with its angle already passed (R156), `takenAp`
is A_p of the edge at which the sweep took it (R154, R155). -/
structure LEntry where
  ang : W64
  tgt : W64
  dir : Dir
  both : Bool
  crossed : Option Nat := none
  taken : Option Nat := none
  behind : Bool := false
  takenAp : W64 := 0
  deriving DecidableEq, Repr

/-- The dynamic state of a context (R148-R156). -/
structure Ctx where
  entries : List LEntry := []
  waiting : Bool := false
  waitAng : W64 := 0
  per : Word := 0
  lead : Word := 0
  lw : Word := 0
  hlim : Word := 0
  late : Bool := false
  sqr : Nat := 0
  replaySeq : Option (BitVec 16) := none
  deriving DecidableEq, Repr

/-- A held place of an engine: a held write, or a held locked sequence (R160, R169). -/
inductive HeldPlace where
  | write (addr data : Word)
  | seq (id : Nat)
  deriving DecidableEq, Repr

/-- Whether an occurrence's release is outstanding, ordered or squashed (R157-R162). -/
inductive OccSt where
  | launched | ordered | squashed
  deriving DecidableEq, Repr

/-- An occurrence of a run-ahead context (R147, R157-R169). -/
structure Occ where
  id : Nat
  ctx : Nat
  tgt : W64
  dir : Dir
  either : Bool
  raised : Nat
  late : Bool
  hlim : Nat := 0
  lrel : Bool := false
  st : OccSt := .launched
  entry : Bool := true
  crossed : Option Nat := none
  taken : Option Nat := none
  engine : Option Nat := none
  places : List HeldPlace := []
  deriving DecidableEq, Repr

/-! ## Engines, outbound port, locks (09, 10, 11) -/

/-- The states of an engine (R174). -/
inductive EngSt where
  | off | idle | load | run | done | fault | test | stopped
  deriving DecidableEq, Repr

/-- The loop a reflex is in (R199). -/
structure LoopSt where
  first : Nat
  last : Nat
  left : Nat
  firstPass : Bool
  deriving DecidableEq, Repr

/-- What an engine waits for in mid-instruction (R202, R204, R221). -/
inductive Stall where
  | none
  | queue
  | lock (n : Nat)
  deriving DecidableEq, Repr

/-- A reflex engine (R174-R185, R190). `pool` is the pool it took for (R173), `faultAt` a fault on its way: the ENG_CLK edge it is taken
at, its reason, and whether its ladder starts at step 2 (R196, R209). `raiseAt` is a RAISE on its way: the RANK_CLK edge it is judged at, its payload and
its destination register (R205). `recov` is the recovery step that it owes or carries out, `recovOn` tells that it
has begun (R306). `ldAt` is its last slot read: the ENG_CLK edge, the word and the destination register
(R178, R201). -/
structure Eng where
  st : EngSt := .stopped
  regs : SMap Word := []
  acc : Acc := 0
  sat : Bool := false
  pc : Nat := 0
  sig : Word := 0
  lp : Option LoopSt := none
  entry : Nat := 0
  len : Nat := 0
  budget : Nat := 0
  slot : Nat := 0
  slotv : Bool := false
  dsig : Word := 0
  bindOk : Bool := true
  preN : Nat := 0
  psn : Option Nat := none
  pool : Nat := 0
  occ : Option Nat := none
  takeAt : Nat := 0
  startAt : Nat := 0
  readyAt : Nat := 0
  stall : Stall := .none
  seqId : Option Nat := none
  doneAt : Nat := 0
  flt : Option Nat := none
  faultAt : Option (Nat × Nat × Bool) := none
  lastFlt : Nat := 0
  idleAt : Nat := 0
  testAt : Nat := 0
  recov : Nat := 0
  recovOn : Bool := false
  tested : Bool := false
  oldCopy : Bool := false
  raiseAt : Option (Nat × Word × BitVec 5) := none
  ldAt : Option (Nat × Nat × BitVec 5) := none
  deriving DecidableEq, Repr

/-- An item of a cluster's outbound queue: a plain write, a burst marker, or a released held place of a context's occurrence (R161,
R202, R222); `late` is a held write that waits for an entry, its release having been ordered (R159, R203), `bad` a write that waits for an entry and whose address failed its residue check (R196). -/
inductive QItem where
  | plain (engine : Nat) (addr data : Word)
  | marker (seq : Nat)
  | freed (ctx : Nat) (p : HeldPlace)
  | late (engine occ : Nat) (addr data : Word)
  | bad (engine : Nat)
  deriving DecidableEq, Repr

/-- A cluster: its outbound queue; what waits for an entry of it, with the ENG_CLK edge it stalled at and its engine, in the order of
entry; its completion collector (R183, R185, R202). `reqAt` is the ENG_CLK
edge at which its outbound request was raised (R215, R216). -/
structure Cluster where
  queue : List QItem := []
  stalled : List (Nat × Nat × QItem) := []
  reqAt : Nat := 0
  lastAcc : Nat := 0
  accAt : Option Nat := none
  deriving DecidableEq, Repr

/-- The phases of a locked sequence (R204, R222, R169). An ended one frees its locks at the ENG_CLK edge it names (R221,
R224). -/
inductive SeqPh where
  | opened
  | occHeld (occ : Nat)
  | queued
  | burst (sent : Nat)
  | torn
  | ending (at_ : Nat)
  deriving DecidableEq, Repr

/-- A locked sequence: its engine, locks, staged writes and phase (R204, R224); `relAt` is the RANK_CLK edge of the REL at which it was
held (R169). -/
structure LSeq where
  id : Nat
  engine : Nat
  locks : List Nat
  writes : List (Word × Word)
  outh : Bool
  ph : SeqPh
  relAt : Nat := 0
  deriving DecidableEq, Repr

/-- A hardware lock (R221). -/
structure Lock where
  owner : Option Nat := none
  engine : Nat := 0
  acq : Nat := 0
  waiters : List (Nat × Nat) := []
  last : Nat := 0
  deriving DecidableEq, Repr

/-- An instance of the credit arbiter (R213-R220). Credits, weights in force and waits (the unit a request was raised in,
the unit its wait is counted to) are by requester; `lane` are the last units an SRAM bank's real-time lane took, `acc` the accesses its
holder has made (R213); `since` is the holder's first unit, `next` the next unit to decide. -/
structure Arb where
  holder : Option Nat := none
  credit : SMap Int := []
  weight : SMap Nat := []
  wait : SMap (Nat × Nat) := []
  masked : List Nat := []
  preempted : Option Nat := none
  since : Nat := 0
  next : Nat := 0
  boundary : Nat := 0
  lane : List Nat := []
  acc : Nat := 0
  deriving DecidableEq, Repr

/-- A safe write the Sentinel has to make: address, data, last of its set; and the torn sequence or the set's lock
it belongs to (R225, R308). -/
structure SafeWrite where
  addr : Word
  data : Word
  last : Bool
  seq : Option Nat
  lock : Nat
  once : Bool := false   -- of a set that entry into the safe state applies (R308)
  deriving DecidableEq, Repr

/-- A write as the outbound port showed it (R211). -/
structure OutWrite where
  addr : Word
  data : Word
  req : Nat
  burst : Bool
  last : Bool
  deriving DecidableEq, Repr

/-! ## Start, profiles and the NVM port (13) -/

/-- The phases of LDR_STAT.phase (R249, R250, R254). -/
inductive Phase where
  | header | check | load | opened | failed
  deriving DecidableEq, Repr

/-- What a step of an NVM job does (R246). An erase names the sector it is issued to; an entry is appended to the bad-sector table
(R262). -/
inductive NvmStep where
  | read (addr len : Nat)
  | prog (addr : Nat) (data : List Byte)
  | entry (data : List Byte)
  | erase (addr : Nat)
  deriving DecidableEq, Repr

/-- What an NVM job is for. -/
inductive NvmUse where
  | nvmRead | nvmProg | nvmErase
  | save (half : Nat)
  | retune (prof : Nat)
  | ctxStep (k : Nat)
  | gsWrite (rseq : Word) | gsClear (rseq : Word)
  | flush (blk : Nat) (rseqs : List Word) (power : Bool)
  | ckpt (half : Nat)
  | cursor (win : Nat) (op area : Nat)
  | gsFirst (next : Word)
  | release (p : Nat)
  | flushErase
  | requeued
  deriving DecidableEq, Repr

/-- An NVM job: its requester of the NVM arbiter (0 loader, 1 recorder, 2 checkpoints, 3 Sentinel), its steps to do, the
bytes read so far, the unit its request was raised in (R213, R246). -/
structure NvmJob where
  req : Nat
  use : NvmUse
  steps : List NvmStep
  got : List Byte := []
  at_ : Nat := 0
  deriving DecidableEq, Repr

/-- The erase that runs or is suspended (R263). `suspAt` is the edge at which a suspend was issued, until a read follows. -/
structure Erase where
  addr : Nat
  runFrom : Nat
  susp : Bool
  suspAt : Option Nat := none
  deriving DecidableEq, Repr

/-- The settings of the accepted image header (the table "Image header"); the default values are the bootstrap settings: 1-1-1, read
opcode 0x13, no dummy cycles, div = 31 (R245). `ops` are op_prog, op_erase, op_susp, op_resume, op_rsten, op_rst. -/
structure Header where
  hseq : Word := 0
  nor : Bool := true
  io : Nat := 0
  div : Nat := 31
  dummy : Nat := 0
  opRead : Byte := 0x13#8
  ops : List Byte := []
  opWren : Byte := 0
  opRdsr : Byte := 0
  busyBit : Nat := 0
  rdly : Nat := 0
  lsect : Nat := 12
  lpage : Nat := 8
  uselast : Bool := false
  fbp0 : Bool := false
  tprog : Nat := 0
  terase : Nat := 0
  trst : Nat := 0
  tsusp : Nat := 0
  regions : List (Nat × Nat) := []
  deriving DecidableEq, Repr

/-- The retention record in retention SRAM (R250, R251). `same` tells that the seven configuration regions still re-compute
to its rcrc values (R252). -/
structure RetRec where
  valid : Bool := false
  hseq : Word := 0
  epoch : Word := 0
  sel : Nat := 0
  override : Bool := false
  path : Nat := 0
  cand : Nat := 0
  memkept : Bool := false
  erasing : Bool := false
  esect : Nat := 0
  same : Bool := false
  deriving DecidableEq, Repr

/-- The loader and the NVM port (R244-R267). `remap`, `bad` and `released` are the bad-sector table's working copy: replacements, bad
sectors with none, and sectors returned to the spare pool; `progBusy` is the program that keeps the memory busy, its physical address
and length; `kept` tells that the tables stand as a warm reset, or D_CORE Off, kept them for the next start. -/
structure Ldr where
  phase : Phase := .header
  startAt : Nat := 0
  path : Nat := 0
  prof : Nat := 0
  busy : Bool := false
  cstat : Nat := 0
  startW : Word := 0
  epoch : Word := 0
  pins : Nat := 0
  sel : Nat := 0
  hdr : Option Header := none
  nvm : SMap Byte := []
  nvmSize : Nat := 0x100000000
  jobs : List NvmJob := []
  transAt : Nat := 0
  transOn : Bool := false
  erase : Option Erase := none
  spend : Bool := false
  spendAt : Nat := 0
  pendEpoch : Word := 0
  swapCrossed : Option Nat := none
  unl : List Nat := []
  fails : Nat := 0
  lockout : Bool := false
  remap : SMap Nat := []
  bad : List Nat := []
  progBusy : Option (Nat × Nat) := none
  released : List Nat := []
  requeue : List Nat := []
  ret : RetRec := {}
  image : SMap Word := []
  kept : Bool := false
  held : List PortAccess := []
  deriving DecidableEq, Repr

/-! ## Power (14) -/

/-- The states of a power domain (R268). -/
inductive DomSt where
  | on | ret | off
  deriving DecidableEq, Repr

/-- Where a transition stands (R271-R276). -/
inductive TransPh where
  | raising       -- domains return to On, one at a time
  | ckptWait      -- the counter checkpoint of a D_MEM Off strike
  | asking        -- domains are asked
  | acking        -- every domain agreed; acknowledgements awaited
  | undoing       -- re-pitch after a refusal
  deriving DecidableEq, Repr

/-- A power transition: targets, the domains still to raise and to ask, those that stopped (latest first); `boot` is a return that no command
asked for: of the domains after a reset, or of D_NVM for a power-fail flush (R271-R276, R280, R326). -/
structure Trans where
  ph : TransPh
  tgt : SMap DomSt
  ropen : Bool
  raise : List Nat
  acked : List Nat
  ask : List Nat
  asked : Nat
  stopped : List Nat
  await : List Nat
  at_ : Nat
  next : Nat
  wake : Bool
  pm : Bool
  cold : Bool
  boot : Bool := false
  deriving DecidableEq, Repr

/-- A wake request: the SLOW_CLK edge it fell at, its source, and the lowest wake-mask input of that edge (R56, R279). -/
structure WakeReq where
  at_ : Nat
  src : Nat
  pin : Option Nat
  deriving DecidableEq, Repr

/-- The strike controller (R268-R280). `req` is PMD_REQ_d; `ackPin`, `ackMid` and `ack` are PMD_ACK_d as the power manager drives it,
after the first flop of its synchroniser and after the second, and so `pmPin`, `pmMid` and `pmReq` for PMM_REQ with its mode (R277).
`pmAt` is the SLOW_CLK edge at which the power manager's request was last served (R278), `stopAt` the
ENG_CLK edge at which a cluster's clock was stopped (R272). `lateWake` is a wake request that waits for the transition to end, `lastWake` the one last acted on, `i2cAck` whether the last I²C
address byte was acknowledged (R279). -/
structure Pwr where
  dom : SMap DomSt := []
  clkOff : List Nat := []
  ropen : Bool := false
  cstat : Nat := 0
  trans : Option Trans := none
  req : SMap DomSt := []
  ackPin : SMap DomSt := []
  ackMid : SMap DomSt := []
  ack : SMap DomSt := []
  pmPin : Option Nat := none
  pmMid : Option Nat := none
  pmReq : Option Nat := none
  pmAck : Bool := false
  pmOk : Bool := false
  pmAt : Option Nat := none
  stopAt : SMap Nat := []
  lateWake : Option WakeReq := none
  lastWake : Option WakeReq := none
  wakeIn : Bool := false
  i2cAck : Bool := false
  warmWait : Bool := false
  wakePins : SMap Bool := []
  deriving DecidableEq, Repr

/-! ## The mirror (15) -/

/-- The roles of MIR_STAT.role (R283). -/
inductive Role where
  | off | solo | resync | primary | standby | takeover
  deriving DecidableEq, Repr

/-- A journal entry with the edge it entered at and, once sent, its frame's fseq; `late` tells that it was journaled while behind was 1
(R285, R287). -/
structure JItem where
  at_ : Nat
  fseq : Option (BitVec 32)
  e : JEntry
  late : Bool := false
  deriving DecidableEq, Repr

/-- A frame the block sent: its type and flags, its fseq and entries, or the words of its control body (the tables "Frame
header" and "Control bodies"). -/
structure TxFrame where
  kind : Nat
  flags : Nat := 0
  fseq : BitVec 32 := 0
  entries : List JEntry := []
  body : List Word := []
  deriving DecidableEq, Repr

/-- The mirror (R281-R294). `tx` is the last frame sent, `served` tells that the block has opened and served work since its
last loss, `fto` is a takeover that was given up, `gapped` a frame that is missing, `snapGot` tells a block in Resync that the snapshot is whole, `calLow` is the low word of the calendar that a CFG entry brought; `snapLeft`, `snapSeq`
and `snapAt` are a Primary's snapshot: frames to send, its last fseq and the edge it ended at, while `snapOn`; `psrc`, `pctx`
and `plock` are what the journal has told of sources, contexts and locks. -/
structure Mir where
  role : Role := .off
  link : Bool := false
  strap : Bool := false
  served : Bool := false
  fence : Bool := false
  fack : Bool := false
  fenceAt : Nat := 0
  behind : Bool := false
  lapsed : Bool := false
  journal : List JItem := []
  fseq : BitVec 32 := 1
  ackseq : BitVec 32 := 0
  rxseq : BitVec 32 := 0
  gapped : Bool := false
  snapGot : Bool := false
  calLow : Option Word := none
  snapOn : Bool := false
  snapLeft : Nat := 0
  snapSeq : BitVec 32 := 0
  snapAt : Nat := 0
  fto : Bool := false
  lastRx : Nat := 0
  lastTx : Nat := 0
  helloAt : Nat := 0
  cause : Nat := 0
  seen : Bool := false
  tx : Option TxFrame := none
  psrc : SMap (Nat × Nat × Nat × Nat × Word) := []
  pctx : SMap (Nat × W64) := []
  plock : SMap (Bool × Bool × Bool × Nat) := []
  takeAt : Option Nat := none   -- the next source a takeover visits
  deriving DecidableEq, Repr

/-! ## The Sentinel (16) -/

/-- The ladder of one function (R302, R303). `tmr` is the SLOW_CLK edge at which the escalation timer started, `stepAt` the RANK_CLK edge
of its last step, `endAt` the ENG_CLK edge at which a cluster's step ends, `owe` the tenants whose re-initialisation its step 3 waits
for, once its repeated step 2 has ended (R304). -/
structure Func where
  step : Nat := 0
  tmr : Option Nat := none
  len : Nat := 0
  busy : Bool := false
  retired : Bool := false
  cmd : Bool := false
  stepAt : Option Nat := none
  endAt : Option Nat := none
  owe : Option (List Nat) := none
  deriving DecidableEq, Repr

/-- The Sentinel (R295-R309). `entered` is the edge of the last cause of the safe state, `left` that of the last LEAVE_SAFE that
ended it, `warmDue` a warm reset asserted by the command that runs; `testEng` is the engine under the rotating test, `testNext` the first
it tests next, `testFrom` the edge its 20 ms interval began at (R297). -/
structure Snt where
  safe : Bool := false
  entered : Option Nat := none
  warmDue : Bool := false
  pcreq : Bool := false
  funcs : SMap Func := []
  testEng : Option Nat := none
  left : Option Nat := none
  testNext : Nat := 0
  testFrom : Nat := 0
  deriving DecidableEq, Repr

/-! ## The recorder (17) -/

/-- A record before its crc is added (R312). -/
structure Rec where
  kind : Nat := 0
  flags : Nat := 0
  tenant : Nat := 0
  rseq : Word := 0
  time : W64 := 0
  sub : Word := 0
  object : Nat := 0
  reason : Nat := 0
  d : List Word := []
  epoch : Word := 0
  deriving DecidableEq, Repr

/-- A kind's storm tally: `time0` and `sub0` are the time of the first folded request, `time` and `sub` that of the last (R317). -/
structure Tally where
  n : Nat
  first : Nat
  last : Nat
  time0 : W64
  sub0 : Word
  time : W64
  sub : Word
  deriving DecidableEq, Repr

/-- The recorder's logs and counts (R312-R336). `subBase` are the RANK_CLK cycles since the SLOW_CLK edge that had passed as a reset restarted the count of edges (R312). `asmRank` is the edge of the last assembly outside a freeze and `asmOut` the record it
overwrote, `pfWant` the power-fail flushes that wait for D_NVM, `flyAt` the Flysheet place written next, `gsAt` the Groundsheet slot
written next, `clearQ` a CLEAR record to be assembled, `ckptSec` the calendar seconds since the last checkpoint. -/
structure Recorder where
  reqs : List Rec := []
  tally : SMap Tally := []
  fly : List Rec := []
  flyAt : Nat := 0
  side : List Rec := []
  frzDropped : Bool := false
  drain : Bool := false
  degr : Bool := false
  area : List Rec := []
  gasp : SMap Rec := []
  gaspNext : Nat := 0
  gaspSeen : Bool := false
  gaspSeq : Word := 0
  gaspQ : List (Nat × Rec) := []
  rseq : Word := 0
  asmAt : Nat := 0
  sideAt : Nat := 0
  gsNext : Word := 0
  gsN : Nat := 0
  gsAt : Nat := 0
  gsStop : Bool := false
  clearing : Bool := false
  clearQ : Option Rec := none
  cstat : Nat := 0
  armed : Option Nat := none
  hist : List (List Word) := []
  flushWant : Bool := false
  asmRank : Option Nat := none
  asmOut : Option Rec := none
  pfWant : Nat := 0
  ckptOn : Bool := false
  ckptSec : Nat := 0
  ckseq : Word := 0
  sec : BitVec 48 := 0
  cv : Bool := false
  calLost : Bool := true
  secEdge : Nat := 0
  opSec : Nat := 0
  opHour : Nat := 0
  slowRank : Nat := 0
  subBase : Nat := 0
  keep : SMap Word := []
  keepOk : Bool := false
  deriving DecidableEq, Repr

/-! ## The whole block -/

/-- The state of Ronhorn. `fifo` are the doorbells in the two ports' entry FIFOs, in merge order, each with the FAB_CLK
edge of its transfer, and `fab` numbers those edges (R61, R62, R73; log 112). `flush` are the tenants a FLUSH runs for, each with
the next VSN it visits (R243). `resp` is the last response of the register port, `answered` those of the present edge in their order, and
`regTag` the tag of the next access (R348; log 124). `pending` is the queue of waiting commands, `free` the model's counter of free values (log 5). -/
structure State where
  rank : Nat := 0
  slowEdge : Nat := 0
  regs : SMap Word := []
  tbl : SMap Word := []
  shadowTbl : SMap Word := []
  slow : SMap Word := []
  edge : Edge := {}
  resp : Resp := {}
  answered : List Resp := []
  regTag : BitVec 8 := 0
  wins : SMap Win := []
  ticks : Nat := 0
  tickAt : Nat := 0
  ins : SMap InSt := []
  fifo : List (Nat × Bell) := []
  fab : Nat := 0
  rq : SMap (List CMsg) := []
  lastMsg : Option (Nat × CMsg) := none
  srcs : SMap Src := []
  dsts : SMap Dst := []
  banks : SMap Bank := []
  usage : SMap Nat := []
  decayAt : Nat := 0
  bases : SMap Base := []
  ctxs : SMap Ctx := []
  occs : SMap Occ := []
  occNext : Nat := 0
  engs : SMap Eng := []
  pools : SMap Nat := []
  clusters : SMap Cluster := []
  locks : SMap Lock := []
  seqs : SMap LSeq := []
  seqNext : Nat := 0
  arbs : SMap Arb := []
  safeQ : List SafeWrite := []
  safeAt : Nat := 0
  outAt : Option Nat := none
  stallRun : Nat := 0
  outLast : Option OutWrite := none
  flush : List (Nat × Nat) := []
  mapStat : Nat := 0
  mapHeld : List PortAccess := []
  ldr : Ldr := {}
  pwr : Pwr := {}
  mir : Mir := {}
  snt : Snt := {}
  log : Recorder := {}
  pending : List Instr := []
  free : Nat := 0
  deriving DecidableEq, Repr

/-- The machine right after reset: lantern power-on reset and BLK_RST_N released, the start not yet run (R11, R250,
R351). Every field stands at the value of its Reset column; log 4 names those the spec gives none. -/
def State.reset : State := {}

end Sys2Proof.Machine
end

