-- ==== Sys2Proof/Machine/Ops.lean ====
section
/-! DEFINITION. Named operations over the registers, tables, counters and clocks of the block, which every meaning
shares: one accessor per kind of state. -/

namespace Sys2Proof.Machine

/-- What a command answers. -/
abbrev Out := Host.Outcome State Fault Refusal

/-- Apply `f` for each element, in order. -/
def forEach {α : Type} (l : List α) (f : α → State → State) (s : State) : State := l.foldl (fun t a => f a t) s

/-- Apply `f` when `b` holds. -/
def onlyIf (b : Bool) (f : State → State) (s : State) : State := if b then f s else s

/-! ## The keyed parts of the state -/

/-- Wired input `k`. -/
def State.inp (s : State) (k : Nat) : InSt := mGet (fun _ => {}) s.ins k
/-- Wired input `k` replaced. -/
def State.setIn (s : State) (k : Nat) (v : InSt) : State := { s with ins := mSet (fun _ => {}) s.ins k v }
/-- Wired input `k` changed by `f`. -/
def State.modIn (s : State) (k : Nat) (f : InSt → InSt) : State := s.setIn k (f (s.inp k))

/-- Source `k`. -/
def State.src (s : State) (k : Nat) : Src := mGet (fun _ => {}) s.srcs k
/-- Source `k` replaced. -/
def State.setSrc (s : State) (k : Nat) (v : Src) : State := { s with srcs := mSet (fun _ => {}) s.srcs k v }
/-- Source `k` changed by `f`. -/
def State.modSrc (s : State) (k : Nat) (f : Src → Src) : State := s.setSrc k (f (s.src k))

/-- Destination `k`. -/
def State.dst (s : State) (k : Nat) : Dst := mGet (fun _ => {}) s.dsts k
/-- Destination `k` replaced. -/
def State.setDst (s : State) (k : Nat) (v : Dst) : State := { s with dsts := mSet (fun _ => {}) s.dsts k v }
/-- Destination `k` changed by `f`. -/
def State.modDst (s : State) (k : Nat) (f : Dst → Dst) : State := s.setDst k (f (s.dst k))

/-- Heap bank `k`. -/
def State.bank (s : State) (k : Nat) : Bank := mGet (fun _ => {}) s.banks k
/-- Heap bank `k` replaced. -/
def State.setBank (s : State) (k : Nat) (v : Bank) : State := { s with banks := mSet (fun _ => {}) s.banks k v }
/-- Heap bank `k` changed by `f`. -/
def State.modBank (s : State) (k : Nat) (f : Bank → Bank) : State := s.setBank k (f (s.bank k))

/-- Phase base `k`. -/
def State.base (s : State) (k : Nat) : Base := mGet (fun _ => {}) s.bases k
/-- Phase base `k` replaced. -/
def State.setBase (s : State) (k : Nat) (v : Base) : State := { s with bases := mSet (fun _ => {}) s.bases k v }
/-- Phase base `k` changed by `f`. -/
def State.modBase (s : State) (k : Nat) (f : Base → Base) : State := s.setBase k (f (s.base k))

/-- Context `k`. -/
def State.ctx (s : State) (k : Nat) : Ctx := mGet (fun _ => {}) s.ctxs k
/-- Context `k` replaced. -/
def State.setCtx (s : State) (k : Nat) (v : Ctx) : State := { s with ctxs := mSet (fun _ => {}) s.ctxs k v }
/-- Context `k` changed by `f`. -/
def State.modCtx (s : State) (k : Nat) (f : Ctx → Ctx) : State := s.setCtx k (f (s.ctx k))

/-- Engine `k`. -/
def State.eng (s : State) (k : Nat) : Eng := mGet (fun _ => {}) s.engs k
/-- Engine `k` replaced. -/
def State.setEng (s : State) (k : Nat) (v : Eng) : State := { s with engs := mSet (fun _ => {}) s.engs k v }
/-- Engine `k` changed by `f`. -/
def State.modEng (s : State) (k : Nat) (f : Eng → Eng) : State := s.setEng k (f (s.eng k))

/-- Cluster `k`. -/
def State.cluster (s : State) (k : Nat) : Cluster := mGet (fun _ => {}) s.clusters k
/-- Cluster `k` replaced. -/
def State.setCluster (s : State) (k : Nat) (v : Cluster) : State := { s with clusters := mSet (fun _ => {}) s.clusters k v }
/-- Cluster `k` changed by `f`. -/
def State.modCluster (s : State) (k : Nat) (f : Cluster → Cluster) : State := s.setCluster k (f (s.cluster k))

/-- Hardware lock `k`. -/
def State.lock (s : State) (k : Nat) : Lock := mGet (fun _ => {}) s.locks k
/-- Hardware lock `k` replaced. -/
def State.setLock (s : State) (k : Nat) (v : Lock) : State := { s with locks := mSet (fun _ => {}) s.locks k v }
/-- Hardware lock `k` changed by `f`. -/
def State.modLock (s : State) (k : Nat) (f : Lock → Lock) : State := s.setLock k (f (s.lock k))

/-- Arbiter instance `k`. -/
def State.arb (s : State) (k : Nat) : Arb := mGet (fun _ => {}) s.arbs k
/-- Arbiter instance `k` replaced. -/
def State.setArb (s : State) (k : Nat) (v : Arb) : State := { s with arbs := mSet (fun _ => {}) s.arbs k v }
/-- Arbiter instance `k` changed by `f`. -/
def State.modArb (s : State) (k : Nat) (f : Arb → Arb) : State := s.setArb k (f (s.arb k))

/-- Window `k`. -/
def State.win (s : State) (k : Nat) : Win := mGet (fun _ => {}) s.wins k
/-- Window `k` replaced. -/
def State.setWin (s : State) (k : Nat) (v : Win) : State := { s with wins := mSet (fun _ => {}) s.wins k v }
/-- Window `k` changed by `f`. -/
def State.modWin (s : State) (k : Nat) (f : Win → Win) : State := s.setWin k (f (s.win k))

/-! ## Registers and tables -/

/-- The reset value of a register key (shared registers and windows' own, R341). -/
def regDef (k : Nat) : Word := regReset (k % 0x4000)

/-- The stored word of a shared register. -/
def State.reg (s : State) (off : Nat) : Word := mGet regDef s.regs off
/-- A shared register's stored word replaced. -/
def State.setReg (s : State) (off : Nat) (v : Word) : State := { s with regs := mSet regDef s.regs off v }
/-- The stored word of a register as window `w` sees it. -/
def State.regW (s : State) (w off : Nat) : Word := s.reg (regKey w off)
/-- The same, replaced. -/
def State.setRegW (s : State) (w off : Nat) (v : Word) : State := s.setReg (regKey w off) v
/-- Whether a register key is a lantern register's: its writes act at SLOW_CLK edges (R34). -/
def isLan (k : Nat) : Bool := decide (0x2800 ≤ k ∧ k < 0x2C00) || decide (k = 0x3500)
/-- The increments so far of a key. -/
def counts (m : SMap Nat) (k : Nat) : Nat := mGet (fun _ => 0) m k
/-- One counter more advanced by `n` at this edge (R8). -/
def addCount (m : SMap Nat) (k n : Nat) : SMap Nat := mSet (fun _ => 0) m k (counts m k + n)
/-- A register counter advanced by `n` at this edge (R8). -/
def Edge.counted (e : Edge) (k n : Nat) : Edge :=
  if isLan k then { e with lcnt := addCount e.lcnt k n } else { e with cnt := addCount e.cnt k n }
/-- What stays of an edge's notes at RANK_CLK edge `n`: those of the SLOW_CLK edge and of the ENG_CLK edge (R7, R8). -/
def Edge.next (e : Edge) (n : Nat) : Edge := { lcnt := e.lcnt, slots := if n % 2 = 0 then [] else e.slots }
/-- A release is ordered at this edge (R161, R162). -/
def Edge.ordered (e : Edge) (o : Nat) : Edge := { e with rel := e.rel ++ [o] }
/-- A squash of this edge takes an ordered release back (R162). -/
def Edge.unordered (e : Edge) (o : Nat) : Edge := { e with rel := e.rel.filter fun x => decide (x ≠ o) }
/-- What a register counter's increments of this edge add to a value software loads (R8, R35). -/
def State.onTop (s : State) (k : Nat) : Word := wd (counts (if isLan k then s.edge.lcnt else s.edge.cnt) k)
/-- A 32-bit counter advances by `n`, wrapping (R28). -/
def State.bumpN (s : State) (off n : Nat) : State := { s.setReg off (s.reg off + wd n) with edge := s.edge.counted off n }
/-- A 32-bit counter advances by one, wrapping (R28). -/
def State.bump (s : State) (off : Nat) : State := s.bumpN off 1

/-- The stored word `w` of entry `idx` of table `tid`. -/
def State.tw (s : State) (tid idx w : Nat) : Word := mGet tblReset s.tbl (tKey tid idx w)
/-- The same, replaced. -/
def State.setTw (s : State) (tid idx w : Nat) (v : Word) : State :=
  { s with tbl := mSet tblReset s.tbl (tKey tid idx w) v }
/-- A table counter advances by `n`, wrapping. -/
def State.bumpTwN (s : State) (tid idx w n : Nat) : State :=
  { s.setTw tid idx w (s.tw tid idx w + wd n) with edge := { s.edge with tcnt := addCount s.edge.tcnt (tKey tid idx w) n } }
/-- A table counter advances by one, wrapping. -/
def State.bumpTw (s : State) (tid idx w : Nat) : State := s.bumpTwN tid idx w 1
/-- A 64-bit table count, low word at `w` (R332, R333). -/
def State.tw64 (s : State) (tid idx w : Nat) : W64 := mk64 (s.tw tid idx w) (s.tw tid idx (w + 1))
/-- A 64-bit table count advances by one, wrapping. -/
def State.bumpTw64 (s : State) (tid idx w : Nat) : State :=
  let v := s.tw64 tid idx w + 1
  (s.setTw tid idx w (lo32 v)).setTw tid idx (w + 1) (hi32 v)

/-- Hardware clears a table word's bit 0, an en (R8). -/
def State.clearEn (s : State) (tid idx : Nat) : State :=
  { s.setTw tid idx 0 (s.tw tid idx 0 &&& ~~~1#32) with edge := { s.edge with hc := tKey tid idx 0 :: s.edge.hc } }
/-- Hardware writes a table word (R8). -/
def State.hwTw (s : State) (tid idx w : Nat) (v : Word) : State :=
  { s.setTw tid idx w v with edge := { s.edge with hs := tKey tid idx w :: s.edge.hs } }
/-- A value software stores into a table word, with what hardware did to the word at this edge: increments on top, a clear of
en and a hardware write standing (R8, R35, R38, R178). Slot words are written by engines at even RANK_CLK edges, the ENG_CLK
edges. -/
def State.resolved (s : State) (tid idx w : Nat) (v : Word) : Word :=
  let k := tKey tid idx w
  let v := if isCnt tid w then v + wd (counts s.edge.tcnt k) else v
  let v := if s.edge.hc.contains k then v &&& ~~~1#32 else v
  if s.edge.hs.contains k ∨ (s.rank % 2 = 0 ∧ (mFind s.edge.slots k).isSome) then s.tw tid idx w else v

/-- A fresh free value (log 5). -/
def State.freeVal (s : State) : Word := Config.freeWord s.free
/-- The counter of free values advances (log 5). -/
def State.freeNext (s : State) : State := { s with free := s.free + 1 }

/-! ## Clocks -/

/-- The present ENG_CLK edge: RANK_CLK divided by two, phase-aligned (R7, R349). -/
def State.eng2 (s : State) : Nat := s.rank / 2

/-- The number of the first ENG_CLK edge not before the present RANK_CLK edge. -/
def State.engNext (s : State) : Nat := (s.rank + 1) / 2

/-- Whether the limit of `n` units since `from` has passed at `now`. -/
def passed (start n now : Nat) : Bool := decide (start + n ≤ now)

/-! ## Identities (R4, R5, R86) -/

/-- First PSN of message sources. -/
def psnMsg : Nat := 0x0800
/-- First PSN of context-raised sources. -/
def psnCtx : Nat := 0x4800
/-- First PSN of engine-raised sources. -/
def psnEng : Nat := 0x5800
/-- First PSN of house sources. -/
def psnHouse : Nat := 0x5A00
/-- Number of sources. -/
def psnEnd : Nat := 0x5A40
/-- Whether a PSN is a wired input's. -/
def isWired (p : Nat) : Bool := decide (p < psnMsg)
/-- Whether a PSN is a message source's. -/
def isMsg (p : Nat) : Bool := decide (psnMsg ≤ p) && decide (p < psnCtx)
/-- Whether a PSN is a context-raised source's. -/
def isCtx (p : Nat) : Bool := decide (psnCtx ≤ p) && decide (p < psnEng)
/-- Whether a PSN is an engine-raised source's. -/
def isEng (p : Nat) : Bool := decide (psnEng ≤ p) && decide (p < psnHouse)
/-- The heap bank of a destination (R86). -/
def bankOf (d : Nat) : Nat := if d < 512 then d / 16 else (d - 512) % 32
/-- The destinations of a bank, in ascending order (R86). -/
def bankDsts (b : Nat) : List Nat := (List.range 16).map (16 * b + ·) ++ [512 + b, 544 + b]

/-! ## Power domains (R268): 0 D_CORE, 1 D_SCHED, 2 D_MEM, 3 D_LINK, 4 D_NVM, 5 D_LANTERN, 8 + n D_ENGn -/

/-- The state of a domain. -/
def State.dom (s : State) (d : Nat) : DomSt := mGet (fun _ => .on) s.pwr.dom d
/-- Whether a domain is On. -/
def State.domOn (s : State) (d : Nat) : Bool := decide (s.dom d = .on)
/-- Whether a domain answers no access: not On, or its clock stopped by a strike (R29). -/
def State.domStill (s : State) (d : Nat) : Bool := decide (d ≠ 5) && (!s.domOn d || s.pwr.clkOff.contains d)

/-- The domain of an engine's cluster. -/
def engDom (e : Nat) : Nat := 8 + e / 16

/-! ## Responses of the register port (R21, R28, R348) -/

/-- The image that offset bits [15:14] select (R21). -/
def imageNo : Nat → Sys2Proof.Image
  | 0 => .plain | 1 => .set | 2 => .clr | _ => .tgl

/-- Window, offset with image bits, register, and image of an access. -/
def PortAccess.win (a : PortAccess) : Nat := a.addr / 0x10000
def PortAccess.off (a : PortAccess) : Nat := a.addr % 0x10000
def PortAccess.regOff (a : PortAccess) : Nat := a.addr % 0x4000
def PortAccess.img (a : PortAccess) : Sys2Proof.Image := imageNo (a.off / 0x4000)
/-- The port answers an access: the response transfers as it is presented, REG_RREADY being 1 (R348; log 124). -/
def State.respond (s : State) (r : Resp) : State := { s with resp := r, answered := s.answered ++ [r] }

/-- The counter of an error reason, when it has one (the table "Access error reasons"). -/
def errCounter : Nat → Option Nat
  | 1 => some 0x33C0 | 2 => some 0x33C4 | 3 => some 0x33C8 | 4 => some 0x33CC | 5 => some 0x33D0 | _ => none

/-- An errored access: answered, shown in SNT_ACC_LAST and counted, a domain's reads apart (R28). -/
def State.accErr (s : State) (a : PortAccess) (code : Nat) : State :=
  let s := s.setRegW a.win 0x33D4 (wd (at_ a.off 0 16 + at_ code 16 4 + at_ (b2n a.wr) 20 1))
  let s := match errCounter code with
    | some c => if code = 3 ∧ a.wr = false then s else s.bump (regKey a.win c)
    | none => s
  s.respond { id := a.id, data := 0, err := true, code := code }

/-- The accesses that a unit held as its domain stopped being On are answered as of a domain that is not On (R29, R348). -/
def State.answerOff (s : State) (l : List PortAccess) : State := forEach l (fun a s => s.accErr a 3) s

/-! ## The strike controller -/

/-- Change the strike controller's state. -/
def State.modPwr (s : State) (f : Pwr → Pwr) : State := { s with pwr := f s.pwr }

/-! ## Tenants (12) -/

/-- The word of a tenant's table entry (table 0x14). -/
def State.ten (s : State) (v w : Nat) : Word := s.tw 0x14 v w
/-- Whether a tenant is enabled (TEN_CFG.en). -/
def State.tenOn (s : State) (v : Nat) : Bool := bit (s.ten v 0) 0

/-- The tenant of a source, as DSP_SID gives it. -/
def State.sidTenant (s : State) (p : Nat) : Nat := fld (s.tw 0x01 p 4) 16 8
/-- The vtag of a source, as DSP_SID gives it. -/
def State.sidVtag (s : State) (p : Nat) : Nat := fld (s.tw 0x01 p 4) 0 15

/-! ## Record requests (R312-R317) -/

/-- The record's time field (R312, R330): seconds, SLOW_CLK cycles within the second, cv. -/
def State.recTime (s : State) : W64 :=
  BitVec.ofNat 64 (s.log.sec.toNat + at_ (s.slowEdge - s.log.secEdge) 48 15 + at_ (b2n s.log.cv) 63 1)

/-- RANK_CLK cycles since the SLOW_CLK edge that set tick, saturating (R312). -/
def State.recSub (s : State) : Word := wd (min (s.rank - s.log.slowRank + s.log.subBase) 0x1FFFF)

/-- The lowest-numbered enabled tenant whose context range holds a context (R314). The range is TEN_CTX. -/
def State.ctxTenant (s : State) (k : Nat) : Option Nat :=
  (List.range 256).find? fun v =>
    s.tenOn v && decide (fld (s.ten v 3) 0 12 ≤ k) && decide (k < fld (s.ten v 3) 0 12 + fld (s.ten v 3) 16 13)

/-- Put a request in its place: requests of one edge stand in ascending kind, then ascending object (R316). -/
def insertReq (r : Rec) : List Rec → List Rec
  | [] => [r]
  | x :: t =>
    if x.time = r.time ∧ x.sub = r.sub ∧ (r.kind < x.kind ∨ r.kind = x.kind ∧ r.object < x.object) then r :: x :: t
    else x :: insertReq r t

/-- The kind's tally after one more folded request. Those of one edge fold in ascending object (R316, R317). -/
def foldTally (t : Option Tally) (r : Rec) : Tally := match t with
  | none => { n := 1, first := r.object, last := r.object, time0 := r.time, sub0 := r.sub, time := r.time, sub := r.sub }
  | some t =>
    { t with n := min (t.n + 1) 0xFFFFFFFF, time := r.time, sub := r.sub,
             first := if t.time0 = r.time ∧ t.sub0 = r.sub then min t.first r.object else t.first,
             last := if t.time = r.time ∧ t.sub = r.sub then max t.last r.object else r.object }

/-- A configuration region of main SRAM is written while no configuration is open: the retained state no longer re-computes to its
reference CRCs (R250, R252; log 69). -/
def State.touched (s : State) : State :=
  if s.ldr.phase = .opened ∨ s.ldr.ret.same = false then s
  else { s with ldr := { s.ldr with ret := { s.ldr.ret with same := false } } }

/-- Change the recorder's state. -/
def State.modLog (s : State) (f : Recorder → Recorder) : State := { s with log := f s.log }

/-- A record request is folded into its kind's tally (R317). -/
def State.fold (s : State) (r : Rec) : State :=
  (s.modLog fun l => { l with tally := mPut l.tally r.kind (foldTally (mFind l.tally r.kind) r) }).bump 0x3420

/-- A record request enters the queue in its place, or is folded. Of a queue that holds 64, the one that comes last finds no room
(R316, R317). -/
def State.request (s : State) (r : Rec) : State :=
  if (mFind s.log.tally r.kind).isSome then s.fold r
  else
    let l := insertReq r s.log.reqs
    match (if 64 < l.length then l.getLast? else none) with
    | some x => (s.modLog fun g => { g with reqs := l.dropLast }).fold x
    | none => s.modLog fun g => { g with reqs := l }

/-- A record request of a kind that names no tenant (R313, R314). -/
def State.record (s : State) (kind object reason : Nat) (d : List Word) (tenant : Option Nat := none) : State :=
  s.request { kind := kind, flags := b2n tenant.isSome, tenant := tenant.getD 0, time := s.recTime, sub := s.recSub,
              object := object, reason := reason, d := d }

end Sys2Proof.Machine
end

