-- ==== Sys2Proof/Machine/Rank.lean ====
section
/-! DEFINITION. Ranking shared by every source: effective class, ordering key, routing, the pipeline's entry, placement
in heap and shelf, and the loss of an entry (05, 06). -/

namespace Sys2Proof.Machine

/-! ## Class and key (R52, R78-R82) -/

/-- Whether wired input `n` is Class 0 (R52). -/
def State.isC0 (s : State) (n : Nat) : Bool := decide (n < 64) && bit (s.reg (0x0400 + 8 * n)) 0
/-- RNK_SCFG.cls of a source. -/
def State.cls (s : State) (p : Nat) : Nat := fld (s.tw 0x01 p 2) 0 2
/-- RNK_SSTAT.c0dem (R79). -/
def State.c0dem (s : State) (p : Nat) : Bool := decide (s.cls p = 0) && !s.isC0 p
/-- The effective class of a source that goes through a heap: 0b00 ranks as Class 1 (R79). -/
def State.heapCls (s : State) (p : Nat) : Nat := orOne (s.cls p)
/-- The effective class (R79). -/
def State.ecls (s : State) (p : Nat) : Nat := if s.isC0 p then 0 else s.heapCls p
/-- RNK_SCFG.prio. -/
def State.prio (s : State) (p : Nat) : Nat := fld (s.tw 0x01 p 2) 8 8
/-- RNK_SCFG.stenant. -/
def State.stenant (s : State) (p : Nat) : Nat := fld (s.tw 0x01 p 2) 16 8

/-- The age of a stamp at a destination's insertion count (R81). -/
def age (d stamp : BitVec 24) : Nat := (d - stamp).toNat

/-- Whether class and priority of `a` are strictly more urgent than those of `b` (R110). -/
def moreUrgentCP (a b : Key) : Bool := decide (a.cls < b.cls ∨ a.cls = b.cls ∧ a.prio < b.prio)

/-- Whether key `a` is more urgent than key `b` at a destination whose insertion count is `d` (R81). -/
def moreUrgent (d : BitVec 24) (a b : Key) : Bool :=
  if a.cls ≠ b.cls then decide (a.cls < b.cls)
  else if a.prio ≠ b.prio then decide (a.prio < b.prio)
  else if a.share ≠ b.share then decide (a.share < b.share)
  else if age d a.stamp ≠ age d b.stamp then decide (age d b.stamp < age d a.stamp)
  else decide (a.psn < b.psn)

/-- The source of the most urgent key among a list of sources. -/
def State.mostUrgent (s : State) (d : BitVec 24) : List Nat → Option Nat
  | [] => none
  | p :: t => match s.mostUrgent d t with
    | none => some p
    | some q => if moreUrgent d (s.src q).key (s.src p).key then some q else some p

/-- The source of the least urgent key among a list of sources. -/
def State.leastUrgent (s : State) (d : BitVec 24) : List Nat → Option Nat
  | [] => none
  | p :: t => match s.leastUrgent d t with
    | none => some p
    | some q => if moreUrgent d (s.src p).key (s.src q).key then some q else some p

/-- The ordering key as 64 bits (R81). -/
def Key.word (k : Key) : W64 :=
  BitVec.ofNat 64 (at_ k.cls 62 2 + at_ k.prio 54 8 + at_ k.share 39 15 + k.stamp.toNat * 2 ^ 15 + at_ k.psn 0 15)

/-! ## Destinations (R86, R110, R115, R118) -/

/-- DSP_TCFG of a destination. -/
def State.tcfg (s : State) (d : Nat) : Word := s.tw 0x08 d 0
/-- Whether an engine is in Load, Run or Done. -/
def EngSt.busy : EngSt → Bool
  | .load | .run | .done => true
  | _ => false

/-- Whether an engine is a member of pool `p` (R173). -/
def State.member (s : State) (e p : Nat) : Bool :=
  bit (s.tw 0x0B e 0) 0 && decide (fld (s.tw 0x0B e 0) 1 6 = p)
/-- The pool an engine works for: the one it took for while it runs a reflex, else the one it is a member of (R173). -/
def State.poolNow (s : State) (e : Nat) : Option Nat :=
  if (s.eng e).st.busy then some (s.eng e).pool
  else if bit (s.tw 0x0B e 0) 0 then some (fld (s.tw 0x0B e 0) 1 6) else none
/-- Whether a destination is up (R115, R302 step 2 of a target). -/
def State.dstUp (s : State) (d : Nat) : Bool :=
  if d < 512 then (s.dst d).upPin && (s.dst d).downFrom.isNone
  else (List.range 512).any fun e => s.member e (d - 512) && s.domOn (engDom e)
/-- Whether an instance's offered class is 0. -/
def State.heldC0 (s : State) (p : Nat) : Bool := decide ((s.src p).key.cls = 0)
/-- DSP_TSTAT.depth: Active instances of Classes 1-3 (R113). Its range is 0 to 8, so at a pool with more of them it reads 8 (DESIGN
CHOICE, log 113). -/
def State.depth (s : State) (d : Nat) : Nat := min 8 ((s.dst d).nest.filter fun p => !s.heldC0 p).length
/-- DSP_TSTAT.c0depth. -/
def State.c0depth (s : State) (d : Nat) : Nat := ((s.dst d).nest.filter fun p => s.heldC0 p).length
/-- DSP_TLOAD.load (R118). -/
def State.load (s : State) (d : Nat) : Nat :=
  (s.dst d).heap.length + b2n ((s.dst d).offer.isSome || (s.dst d).c0.isSome) + s.depth d
/-- The load a selection sees: as it stood before the edge (R118). -/
def State.load0 (s : State) (d : Nat) : Nat := mGet (fun _ => 0) s.edge.loads d
/-- The loads of the destinations, as the next edge's selections see them (R118). -/
def State.loadsNow (s : State) : SMap Nat := (s.dsts.map fun x => (x.1, s.load x.1)).filter fun x => decide (x.2 ≠ 0)
/-- Whether a target is a member of group `g` (R118). -/
def State.inGroup (s : State) (g t : Nat) : Bool := bit (s.tw 0x07 g (t / 32)) (t % 32)
/-- Whether a target is eligible in its group (R118). -/
def State.eligible (s : State) (t : Nat) : Bool := bit (s.tcfg t) 0 && s.dstUp t
/-- The effective nest limit (DSP_TCFG.nest). -/
def State.nestMax (s : State) (d : Nat) : Nat := min (orOne (fld (s.tcfg d) 4 4)) 8

/-- Whether the running level of a target lets a key be offered (R110). -/
def State.levelOk (s : State) (d : Nat) (k : Key) : Bool :=
  !(bit (s.tcfg d) 1) || (match (s.dst d).nest with
    | [] => true
    | p :: _ => moreUrgentCP k (s.src p).key)

/-- The conditions of R110 at a target, and of R116 at a pool, apart from the standing offer. -/
def State.offerOk (s : State) (d : Nat) (k : Key) : Bool :=
  if d < 512 then bit (s.tcfg d) 0 && s.dstUp d && decide (s.depth d < s.nestMax d) && s.levelOk d k
  else bit (s.tcfg d) 0 && s.dstUp d

/-! ## Routing (R117-R119) -/

/-- The member with the lowest load, ties to the lower number (R117). -/
def State.leastLoaded (s : State) : List Nat → Option Nat
  | [] => none
  | t :: r => match s.leastLoaded r with
    | none => some t
    | some u => if s.load0 u < s.load0 t then some u else some t

/-- The policy's choice among eligible members of group `g`, and whether it was round-robin (R117). -/
def State.choose (s : State) (p pol g : Nat) (el : List Nat) : Option Nat :=
  if pol = 2 then
    let rr := fld (s.reg (0x0D00 + 4 * g)) 16 9
    match el.find? (fun t => decide (rr < t)) with
    | some t => some t
    | none => el.head?
  else if pol = 3 then
    match (s.src p).last with
    | some l => if el.contains l ∧ s.load0 l < fld (s.reg (0x0D00 + 4 * g)) 9 7 then some l else s.leastLoaded el
    | none => s.leastLoaded el
  else s.leastLoaded el

/-- DSP_ROUTE of a source. -/
def State.route (s : State) (p : Nat) : Word := s.tw 0x01 p 0

/-- Whether a source's routing names an engine pool. -/
def State.toPool (s : State) (p : Nat) : Bool := decide (fld (s.route p) 0 3 = 0) && decide (512 ≤ fld (s.route p) 4 10)

/-- The eligible members of a group, in ascending order. -/
def State.eligibles (s : State) (g : Nat) : List Nat := (List.range 512).filter fun t => s.inGroup g t && s.eligible t

/-- Stage 3: the destination of a source, with the round-robin pointer and the fallback count (R117, R119). -/
def State.select (s : State) (p : Nat) : State × Nat :=
  let r := s.route p
  let pol := fld r 0 3
  let dest := fld r 4 10
  if pol = 0 then (s, dest)
  else
    let g := dest % 64
    match s.choose p pol g (s.eligibles g) with
    | some t => (onlyIf (pol = 2) (fun s => s.setReg (0x0D00 + 4 * g) (setFld (s.reg (0x0D00 + 4 * g)) 16 9 t)) s, t)
    | none => (s.bump 0x0C14, fld (s.reg (0x0D00 + 4 * g)) 0 9)

/-! ## Class 1 supervision (R98) -/

/-- Class 1 instances Pending or Staged at a destination, counted from stage 5 on (R91, R98). -/
def State.c1count (s : State) (d : Nat) : Nat :=
  (s.srcs.filter fun x => decide (x.2.dst = d) && decide (x.2.key.cls = 1) && (x.2.st == .pending || x.2.st == .staged)
    && decide (x.2.place ≠ .direct) && decide (x.2.place ≠ .pipe)).length

/-- RNK_DSTAT.c1over (R98). -/
def State.c1over (s : State) (d : Nat) : Bool :=
  decide (fld (s.tw 0x05 d 0) 0 4 ≠ 0) && decide (fld (s.tw 0x05 d 0) 0 4 < s.c1count d)

/-! ## Charging (R84) -/

/-- Storage key of U[v][c]. -/
def uKey (v c : Nat) : Nat := 4 * v + c
/-- U[v][c]. -/
def State.u (s : State) (v c : Nat) : Nat := mGet (fun _ => 0) s.usage (uKey v c)
/-- The cost of one insertion: floor(4096 / w) (R84). -/
def State.cost (s : State) (v : Nat) : Nat := 4096 / orOne (fld (s.ten v 0) 8 8)
/-- Charge one insertion of a Class 2 or 3 source (R84). -/
def State.charge (s : State) (v c : Nat) : State :=
  { s with usage := mSet (fun _ => 0) s.usage (uKey v c) (min (s.u v c + s.cost v) 0x7FFF) }

/-! ## The pipeline (R91) -/

/-- Stages 1 and 2 begin: the source's entry enters the pipeline with its effective class; stages 3 to 5 follow at the next edges
(R79, R91). An insertion of a source whose cls is 0b00 by default of the direct path counts in RNK_N_C0DEM here, at stage 1, whatever
becomes of the entry (DESIGN CHOICE, log 114). -/
def State.enter (s : State) (p : Nat) (keep : Kept := {}) : State :=
  let s := onlyIf (s.c0dem p) (·.bump 0x0818) s
  s.modSrc p fun x =>
    { x with place := .pipe, stage := 1, since := s.rank, keep := keep, doom := false, oldKey := false,
             key := { cls := s.heapCls p, prio := s.prio p, share := keep.share.getD 0, stamp := keep.stamp.getD 0, psn := p } }

/-- The sources in the pipeline at a stage, in ascending PSN order. -/
def State.atStage (s : State) (k : Nat) : List Nat :=
  (s.srcs.filter fun x => x.2.place == .pipe && decide (x.2.stage = k)).map Prod.fst

/-- Stage 3 of a source (R117-R119). -/
def State.stage3 (s : State) (p : Nat) : State :=
  let x := s.select p
  x.1.modSrc p fun y => { y with dst := x.2 }

/-- Every entry in the pipeline moves on one stage (R91). -/
def State.pipeStep (s : State) : State :=
  { s with srcs := s.srcs.map fun x => if x.2.place == .pipe then (x.1, { x.2 with stage := x.2.stage + 1 }) else x }

/-- Stage 4 of a source: a Class 2 or 3 insertion that keeps no share takes its tenant's usage level, and is charged (R84). A re-keyed
or re-routed entry that keeps its share passes uncharged (DESIGN CHOICE, log 115). -/
def State.stage4 (s : State) (p : Nat) : State :=
  let x := s.src p
  if 2 ≤ x.key.cls ∧ x.keep.share = none then
    let v := s.stenant p
    (s.modSrc p fun y => { y with key := { y.key with share := s.u v x.key.cls } }).charge v x.key.cls
  else s

/-- The charges of one edge, in ascending bank order (R85), ascending PSN order in one bank (DESIGN CHOICE, log 111). -/
def State.charges (s : State) : State :=
  let l := (s.atStage 4).mergeSort fun a b => decide (bankOf (s.src a).dst ≤ bankOf (s.src b).dst)
  forEach l (fun p s => s.stage4 p) s

/-- The stamp an insertion takes at stage 5 at a destination's count: kept, or of the kept age, or the count (R81, R90, R95,
R121). -/
def Kept.stampAt (k : Kept) (n : BitVec 24) : BitVec 24 := match k.stamp, k.age with
  | some t, _ => t
  | none, some a => n - BitVec.ofNat 24 a
  | none, none => n

/-- Whether an insertion takes a new stamp: only such a one advances its destination's count (DESIGN CHOICE, log 93). -/
def Kept.fresh (k : Kept) : Bool := k.stamp.isNone && k.age.isNone

/-- An insertion made while the destination's c1over is 1 counts (R98). -/
def State.countOver (s : State) (d : Nat) : State := onlyIf (s.c1over d) (·.bumpTw 0x05 d 8) s

/-- Stage 5 of the entries of one edge: each takes its stamp at the count as it stands, and is counted; a destination's count
advances once (R81-R83, R91, R98). Then they wait at stage 6. Entries of one edge and destination are counted for c1over in ascending
PSN order (DESIGN CHOICE, log 116). -/
def State.stage5 (s : State) : State :=
  let l := s.atStage 5
  let fresh := (l.filter fun p => (s.src p).keep.fresh).map fun p => (s.src p).dst
  let s0 := s
  let s := forEach l (fun p s =>
    let x := s.src p
    let s := s.modSrc p fun y =>
      { y with place := .wait6, keep := {}, key := { y.key with stamp := x.keep.stampAt (s0.dst x.dst).stamp } }
    s.countOver x.dst) s
  forEach fresh.eraseDups (fun d s => s.modDst d fun y => { y with stamp := y.stamp + 1 }) s

/-- Whether a heap is full for a class (R87). -/
def State.heapFull (s : State) (d c : Nat) : Bool :=
  decide (64 ≤ (s.dst d).heap.length) ||
  (decide (2 ≤ c) && decide (60 ≤ ((s.dst d).heap.filter fun p => decide (2 ≤ (s.src p).key.cls)).length))

/-- An entry goes to the shelf (R88). -/
def State.toShelf (s : State) (d p : Nat) : State :=
  let k := (s.src p).key
  let s := s.modSrc p fun x => { x with place := .shelf }
  let s := s.modDst d fun x =>
    { x with shelf := x.shelf ++ [p],
             best := match x.best with
               | none => some k
               | some b => if moreUrgent x.stamp k b then some k else some b }
  s.bumpTw 0x05 d 6

/-- An entry goes into the heap, settling at `at_` (R88, R91). -/
def State.toHeap (s : State) (d p settle : Nat) : State :=
  (s.modSrc p fun x => { x with place := .heap, settled := settle }).modDst d fun x => { x with heap := x.heap ++ [p] }

/-- Rules 2 to 4 of R88. -/
def State.placeFull (s : State) (d p settle : Nat) : State :=
  let k := (s.src p).key
  if !s.heapFull d k.cls then s.toHeap d p settle
  else match s.leastUrgent (s.dst d).stamp (s.dst d).heap with
    | some q =>
      if moreUrgent (s.dst d).stamp k (s.src q).key then
        ((s.modDst d fun x => { x with heap := x.heap.filter (· ≠ q) }).toShelf d q).toHeap d p settle
      else s.toShelf d p
    | none => s.toHeap d p settle

/-- Stage 7: the entry is placed by the first rule that applies (R88). -/
def State.place (s : State) (d p settle : Nat) : State :=
  match (s.dst d).best with
  | some b => if moreUrgent (s.dst d).stamp b (s.src p).key then s.toShelf d p else s.placeFull d p settle
  | none => s.placeFull d p settle

/-- Reinstatement of an offered entry, under rules 2 and 3 of R88 and without a bank slot (R109). A retracted entry
that is less urgent than a full heap's least goes to the shelf (log 14). -/
def State.reinstate (s : State) (d p : Nat) : State :=
  (s.modSrc p fun x => { x with st := .pending, since := s.rank, pendAt := s.rank }).placeFull d p s.rank

/-- The entry stages 10 and 11 hold at a destination goes back to its heap, as one whose offer a Class 0 NOTIFY or the loss of the
destination comes before (log 117); a held entry about to be shown again stays held. -/
def State.unform (s : State) (d : Nat) : State :=
  match (s.dst d).form with
  | some (p, _) =>
    let s := s.modDst d fun y => { y with form := none }
    if (s.src p).place = .popped then s.placeFull d p s.rank else s
  | none => s

/-- A source's entry leaves its heap, shelf, pipeline or stages 10 and 11 (R88: a lost shelf-best marks the destination). -/
def State.withdraw (s : State) (p : Nat) : State :=
  let x := s.src p
  let d := x.dst
  let s := match x.place with
    | .heap => s.modDst d fun y => { y with heap := y.heap.filter (· ≠ p) }
    | .shelf => s.modDst d fun y =>
        let sh := y.shelf.filter (· ≠ p)
        if sh.isEmpty then { y with shelf := sh, best := none, mark := false }
        else { y with shelf := sh, mark := y.mark || decide (y.best = some x.key) }
    | .popped => s.modDst d fun y => { y with form := y.form.filter fun f => decide (f.1 ≠ p) }
    | _ => s
  s.modSrc p fun y => { y with place := .none }

/-- The head of a destination: its most urgent settled heap entry (R93). -/
def State.head (s : State) (d at_ : Nat) : Option Nat :=
  s.mostUrgent (s.dst d).stamp ((s.dst d).heap.filter fun p => decide ((s.src p).settled ≤ at_))

/-- The age an entry has at its destination. -/
def State.entryAge (s : State) (p : Nat) : Nat := age (s.dst (s.src p).dst).stamp (s.src p).key.stamp

/-- Whether a place is that of an entry in a heap, on the shelf, or in the pipeline on its way there (log 22). -/
def Place.isEntry : Place → Bool
  | .none => false
  | .popped => false
  | .offer => false
  | .direct => false
  | _ => true

/-- Whether a source is Pending with such an entry. -/
def State.hasEntry (s : State) (p : Nat) : Bool := (s.src p).st == .pending && (s.src p).place.isEntry

/-- What a re-key keeps: the stamp, and the share when `same` class and tenant stay; an entry still in the pipeline keeps what it
has taken (R90). -/
def Src.keptKey (x : Src) (same : Bool) : Kept :=
  if x.place = .pipe then { x.keep with share := if same ∧ (5 ≤ x.stage ∨ x.keep.share.isSome) then some x.key.share else none }
  else { stamp := some x.key.stamp, share := if same then some x.key.share else none }

/-- RNK_SCFG of a source changed from `old`: its entry is withdrawn and re-inserted, with its stamp, and with its share
unless class or charged tenant changed; an entry that stage 10 has taken keeps its old key (R90). -/
def State.rekey (s : State) (p : Nat) (old : Word) : State :=
  if s.hasEntry p then
    let same := decide (s.heapCls p = (s.src p).key.cls) && decide (fld old 16 8 = s.stenant p)
    ((s.withdraw p).enter p ((s.src p).keptKey same)).bump 0x081C
  else if (s.src p).place = .popped then s.modSrc p fun x => { x with oldKey := true }
  else s

/-- DSP_ROUTE of a source changed: its entry is withdrawn and re-inserted, with its age and share (R121). -/
def State.reroute (s : State) (p : Nat) : State :=
  if s.hasEntry p then
    let x := s.src p
    let keep := if x.place = .pipe then x.keptKey true
      else { age := some (s.entryAge p), share := some x.key.share : Kept }
    ((s.withdraw p).enter p keep).bump 0x0C18
  else s

end Sys2Proof.Machine
end

