-- ==== Sys2Proof/Machine/Sources.lean ====
section
/-! DEFINITION. Sources shared by every intake: raising an instance, the wired stages that end in a raise, completion
messages, the end of an instance, and how an offer ends (03, 04, 06). -/

namespace Sys2Proof.Machine

/-! ## Raising (R100, R101, R122) -/

/-- Payload pool entries in use (R72). -/
def State.poolUsed (s : State) : Nat :=
  s.srcs.foldl (fun n x => n + (x.2.q.filter fun i => i.entry.isSome).length) 0
/-- Pool entries a tenant holds, MSG_TUSED (R72). -/
def State.tenUsed (s : State) (v : Nat) : Nat :=
  s.srcs.foldl (fun n x => n + (x.2.q.filter fun i => match i.entry with
    | some e => decide (e.quota = some v)
    | none => false).length) 0

/-- The sequence number a context-raised source's next instance carries: the journaled one, shown with REPLAY, after a
takeover; else the next (R122, R292). -/
def State.takeSeq (s : State) (p : Nat) : State :=
  match (if isCtx p then (s.ctx (p - psnCtx)).replaySeq else none) with
  | some q => (s.modCtx (p - psnCtx) fun c => { c with replaySeq := none }).modSrc p fun x => { x with seq := q, replay := true }
  | none => s.modSrc p fun x => { x with seq := x.seq + 1 }

/-- The source's oldest instance enters Pending: its sequence number advances, and its entry enters the pipeline or
awaits the direct path (R16, R101, R122). -/
def State.becomePending (s : State) (p : Nat) : State :=
  if s.isC0 p then
    let s := s.modIn p fun x => { x with seq0 := x.seq0 + 1 }
    let a := s.reg (0x0400 + 8 * p)
    s.modSrc p fun x =>
      { x with st := .pending, place := .direct, since := s.rank, pendAt := s.rank, seq := (s.inp p).seq0, dst := fld a 16 9,
               key := { cls := 0, prio := fld a 8 8, share := 0, stamp := 0, psn := p } }
  else ((s.takeSeq p).modSrc p fun x => { x with st := .pending, pendAt := s.rank }).enter p

/-- Whether the block serves work: it is Open (R250), and it is not a standby or in Resync or Takeover (R284, R291). -/
def State.serving (s : State) : Bool :=
  s.ldr.phase == .opened && (s.mir.role == .off || s.mir.role == .solo || s.mir.role == .primary)

/-- An instance of a source is raised, whatever the block's role: the source goes Pending, or queues it (R101). -/
def State.raiseIn (s : State) (p : Nat) (i : Inst) : State :=
  let idle := (s.src p).q.isEmpty
  let s := s.modSrc p fun x => { x with q := x.q ++ [i] }
  if idle then s.becomePending p else s

/-- An instance of a source is raised. A block that does not serve raises no instance (R250, R284); one that does has served work
(R283). -/
def State.raise (s : State) (p : Nat) (i : Inst) : State :=
  if !s.serving then s else { s with mir := { s.mir with served := true } }.raiseIn p i

/-- A house source is raised; a raise that finds its instance held is absorbed (R299). In Takeover it is raised too, for the events that
lead there, and is offered once the block opens (R289, R291; DEDUCED, log 142). -/
def State.house (s : State) (p : Nat) : State :=
  if (s.src p).q.isEmpty = false then s
  else if s.mir.role = .takeover ∧ s.ldr.phase = .opened then s.raiseIn p {} else s.raise p {}

/-! ## Wired intake, stages 6 to 9 (R40-R51) -/

/-- INT_CFG of an input. -/
def State.wcfg (s : State) (n : Nat) : Word := s.tw 0x02 n 0
/-- INT_CFG.sense. -/
def State.sense (s : State) (n : Nat) : Nat := fld (s.wcfg n) 2 2
/-- INT_STORM.depth. -/
def State.depthOf (s : State) (n : Nat) : Nat := fld (s.tw 0x02 n 2) 0 8
/-- The queue limit of a wired source (R42). -/
def State.wiredMax (s : State) (n : Nat) : Nat := if s.sense n = 0 then 1 else 15
/-- INT_STAT.storm (R50). -/
def State.storm (s : State) (n : Nat) : Bool := decide (s.depthOf n ≠ 0) && decide ((s.inp n).tokens = 0)

/-- Whether the minimum edge interval of an input has run out, or none runs (R45, R47). -/
def State.meiOver (s : State) (n : Nat) : Bool :=
  let x := s.inp n
  let mei := fld (s.wcfg n) 16 16
  !x.meiOn || decide (mei = 0) ||
  (if bit (s.wcfg n) 8 then decide (x.passTick + mei ≤ s.ticks)
   else if n < 64 then decide (x.passRank + mei ≤ s.rank)
   else decide (x.passRank / 2 + mei ≤ s.rank / 2))

/-- An edge passes stage 6: the interval restarts (R45). -/
def State.passMei (s : State) (n : Nat) : State :=
  s.modIn n fun x => { x with meiOn := true, passRank := s.rank, passTick := s.ticks, passLevel := x.level, coal := false }

/-- A change of INT_STAT.storm from 0 to 1 raises its house source under saction 0b01 (R51). -/
def State.stormOnset (s : State) (n : Nat) (before : Bool) : State :=
  if !before && s.storm n && decide (fld (s.tw 0x02 n 2) 30 2 = 1) then s.house 0x5A09 else s

/-- Stages 7 to 9 of the wired intake: queue, storm guard, raise (R40, R50). A block that does not serve checks and raises
nothing (R250, R284). -/
def State.stages79 (s : State) (n : Nat) : State :=
  if s.wiredMax n ≤ (s.src n).q.length then s.bumpTw 0x02 n 6
  else if s.storm n then s.bumpTw 0x02 n 9
  else
    let before := s.storm n
    let s := onlyIf (decide (s.depthOf n ≠ 0)) (·.modIn n fun x => { x with tokens := x.tokens - 1 }) s
    (onlyIf s.serving (fun s => (s.raise n {}).bumpTw 0x02 n 4) s).stormOnset n before

/-- A level-sensed input tries to raise its next instance (R41, R43). A refused raise waits for the first tick at which the
bucket holds a token. A level that becomes active inside the interval waits for its expiry and counts nothing in INT_N_COAL:
that counter is for edges (DESIGN CHOICE, log 88). -/
def State.levelTry (s : State) (n : Nat) : State :=
  if s.sense n = 0 ∧ bit (s.wcfg n) 0 ∧ (s.inp n).level ∧ (s.src n).q.isEmpty ∧ s.meiOver n ∧
      (s.inp n).retry = false ∧ s.serving then
    let s := s.passMei n
    if s.storm n then (s.bumpTw 0x02 n 9).modIn n fun x => { x with retry := true }
    else s.stages79 n
  else s

/-- A tick at which the bucket of an input holds a token ends the wait of a refused raise (R43). -/
def State.retryTick (s : State) (n : Nat) : State :=
  if (s.inp n).retry ∧ s.storm n = false then (s.modIn n fun x => { x with retry := false }).levelTry n else s

/-- Whether the sense mode raises on a transition to `lvl` (R42). -/
def raisesOn (sense : Nat) (lvl : Bool) : Bool :=
  decide (sense = 3) || (decide (sense = 1) && lvl) || (decide (sense = 2) && !lvl)

/-- The filtered level of every input is that of its pin, after polarity (R40, R57). -/
def State.liveLevels (s : State) : State :=
  forEach (List.range 2048) (fun n s => s.modIn n fun x => { x with level := xor x.pin (bit (s.wcfg n) 1) }) s

/-- The inputs latched while D_CORE was not On raise, in ascending order, once the block works again (R57). -/
def State.wakeRaise (s : State) : State :=
  if s.pwr.wakePins.isEmpty ∨ s.serving = false then s
  else
    let l := s.pwr.wakePins
    let s := s.modPwr fun p => { p with wakePins := [] }
    forEach l (fun x s =>
      let lvl := xor x.2 (bit (s.wcfg x.1) 1)
      if bit (s.wcfg x.1) 0 ∧ raisesOn (s.sense x.1) lvl then (s.passMei x.1).stages79 x.1 else s.levelTry x.1) s

/-! ## Completion messages (R71, R74, R75) -/

/-- The completion word (R75). -/
def cword (payload : Word) (vsn : Nat) (np : Bool) (status : Nat) (cookie : BitVec 8) : W64 :=
  BitVec.ofNat 64 (payload.toNat + at_ vsn 32 15 + at_ (b2n np) 47 1 + at_ status 48 4 + at_ cookie.toNat 56 8)

/-- The return queue of a port. -/
def State.rqOf (s : State) (port : Nat) : List CMsg := mGet (fun _ => []) s.rq port

/-- A completion message enters its port's return queue, or is dropped when the queue is full (R75). -/
def State.sendC (s : State) (port : Nat) (m : CMsg) : State :=
  if (s.rqOf port).length < 64 then { s with rq := mSet (fun _ => []) s.rq port (s.rqOf port ++ [m]) }
  else s.bump (0x0624 + 0x20 * port)

/-- The completion of an instance with a pool entry (R71, R74, R76). -/
def State.sendDone (s : State) (p : Nat) (i : Inst) (status : Nat) : State :=
  match i.entry with
  | some e =>
    if e.send then
      s.sendC e.port
        { dest := e.srcid,
          data := cword (if e.np then 0 else e.payload) (if e.stw then p - psnMsg else s.sidVtag p) e.np status e.cookie }
    else s
  | none => s

/-! ## The end of an instance (R102, R332, R333) -/

/-- The source-map slot of a tenant's VSN, when the VSN lies in its range: its PSN and valid bit (12). -/
def State.mapSlot (s : State) (v vsn : Nat) : Option Nat :=
  let w := s.ten v 2
  if vsn < fld w 16 16 then
    let slot := fld w 0 15 + vsn
    let e := s.tw 0x15 (slot / 16) (slot % 16)
    if slot < 32768 ∧ bit e 15 then some (fld e 0 15) else none
  else none

/-- The tenant a source is mapped to, as its DSP_SID and the source map give it. -/
def State.mappedTo (s : State) (p : Nat) : Option Nat :=
  let v := s.sidTenant p
  if s.mapSlot v (s.sidVtag p) = some p then some v else none

/-- An instance ends: its completion leaves, and the lifetime and tenant counts advance (R74, R332, R333). -/
def State.endInst (s : State) (p : Nat) (i : Inst) (flushed : Bool) : State :=
  let s := s.sendDone p i (if flushed then 5 else 0)
  let s := s.bumpTw64 0x19 p 0
  match s.mappedTo p with
  | some v => s.bumpTw64 0x1A v (if flushed then 2 else 0)
  | none => s

/-- A discarded instance that has not passed Completing ends FLUSHED (R101, R332). -/
def State.flushInst (s : State) (p : Nat) (i : Inst) : State := (s.endInst p i true).bumpTw 0x01 p 9

/-- The instances queued behind the oldest are discarded. -/
def State.flushQueue (s : State) (p : Nat) : State :=
  let q := (s.src p).q
  forEach (q.drop 1) (fun i s => s.flushInst p i) (s.modSrc p fun x => { x with q := q.take 1 })

/-- An occurrence is forgotten once nothing of it can act any more: its release is ordered or squashed, it holds no place,
and its instance has ended. -/
def State.forgetOcc (s : State) (o : Nat) : State :=
  match mFind s.occs o with
  | some x =>
    if x.st ≠ .launched ∧ x.places.isEmpty ∧ (s.src (psnCtx + x.ctx)).q.all (fun i => i.occ ≠ some o) then
      { s with occs := mErase s.occs o }
    else s
  | none => s

/-- The held places an instance's occurrence still holds. -/
def State.instHeld (s : State) (i : Inst) : Nat := match i.occ with
  | some o => match mFind s.occs o with
    | some x => x.places.length
    | none => 0
  | none => 0

/-- DSP_SSTAT.held: Completing waits on held writes (R102). -/
def State.heldBack (s : State) (p : Nat) : Bool := match (s.src p).q with
  | i :: _ => (s.src p).st == .completing && decide (0 < s.instHeld i)
  | [] => false

/-- The source leaves Completing: the instance ends, and the next oldest goes Pending (R101, R102). A level-sensed
input may raise again (R43). -/
def State.leave (s : State) (p : Nat) : State :=
  let x := s.src p
  match x.q with
  | [] => s
  | i :: rest =>
    let s := s.endInst p i x.flushed
    let s := onlyIf (!x.flushed) (·.bumpTw 0x01 p 8) s
    let s := s.modSrc p fun x =>
      { x with q := rest, st := .idle, place := .none, outer := none, inner := false, replay := false, flushed := false,
               kept := false, doom := false, oldKey := false, told := none, since := s.rank, key := {}, dst := 0 }
    let s := match i.occ with
      | some o => s.forgetOcc o
      | none => s
    if rest.isEmpty then (if isWired p then s.levelTry p else s) else s.becomePending p

/-- The source leaves Completing if its completion work is done and it holds nothing (R102, R363). -/
def State.tryLeave (s : State) (p : Nat) : State :=
  let x := s.src p
  if x.st = .completing ∧ x.kept = false ∧ x.since + 2 ≤ s.rank ∧ s.heldBack p = false then s.leave p else s

/-- The sources whose completion work is over leave Completing by the end of the edge (R67, R102, R205). -/
def State.dueLeaves (s : State) : State :=
  forEach ((s.srcs.filter fun x => x.2.st == .completing).map Prod.fst) (fun p s => s.tryLeave p) s

/-- The oldest instance enters Completing (R101). -/
def State.completing (s : State) (p : Nat) (flushed : Bool) : State :=
  (s.modSrc p fun x => { x with st := .completing, place := .none, since := s.rank, inner := false, outer := none,
                                flushed := flushed }) |> onlyIf flushed (·.bumpTw 0x01 p 9)

/-! ## Nesting (R107, R113) -/

/-- The innermost Active instance of a destination changes: the inner marks follow (R113). -/
def State.setNest (s : State) (d : Nat) (l : List Nat) : State :=
  let s := s.modDst d fun x => { x with nest := l }
  match l with
  | [] => s
  | p :: rest =>
    let s := s.modSrc p fun x => { x with inner := decide (d < 512) }
    match rest with
    | q :: _ => s.modSrc q fun x => { x with inner := false }
    | [] => s

/-- An instance becomes Active at a destination (R101, R113). -/
def State.activate (s : State) (d p : Nat) : State :=
  let outer := if d < 512 then (s.dst d).nest.head? else none
  let s := s.modSrc p fun x =>
    { x with st := .active, place := .none, since := s.rank, outer := outer,
             last := if d < 512 then some d else x.last }
  (s.setNest d (p :: (s.dst d).nest)).bumpTw 0x08 d 4

/-! ## How an offer ends unclaimed (R103, R109, R112) -/

/-- The ordinary offer at a destination ends by RETRACT and its entry is reinstated (R101, R109). -/
def State.retract (s : State) (d : Nat) : State :=
  match (s.dst d).offer with
  | some o =>
    ((((s.modDst d fun x => { x with offer := none, timer := none, retractAt := none, lostAt := some s.rank }).bumpTw 0x08 d 6).bumpTw 0x01 o.psn 7)).reinstate d o.psn
  | none => s

/-- The offer and the held entry of a destination that stops being up end without RETRACT (R112, R115). -/
def State.withdrawOffers (s : State) (d : Nat) : State :=
  let back := fun (o : Option Offer) (s : State) => match o with
    | some o => s.reinstate d o.psn
    | none => s
  let s := s.unform d
  let x := s.dst d
  let s := s.modDst d fun x => { x with offer := none, parked := none, c0 := none, timer := none, retractAt := none }
  let s := back x.parked (back x.offer s)
  match x.c0 with
  | some o => s.modSrc o.psn fun y => { y with st := .pending, place := .direct, since := s.rank, pendAt := s.rank }
  | none => s

end Sys2Proof.Machine
end

