-- ==== Sys2Proof/Machine/Locks.lean ====
section
/-! DEFINITION. Hardware locks and locked sequences: acquiring, freeing, and the three outcomes (R221-R226), and the
places of a cluster's outbound queue (R183, R202, R222). -/

namespace Sys2Proof.Machine

/-! ## Late releases (R159) -/

/-- CTX_CFG of a context. -/
def State.ccfg (s : State) (k : Nat) : Word := s.tw 0x0A k 0
/-- CTX_CFG.base. -/
def State.cbase (s : State) (k : Nat) : Nat := fld (s.ccfg k) 1 4
/-- CTX_CFG.rec. -/
def State.crec (s : State) (k : Nat) : Bool := bit (s.ccfg k) 9
/-- A context's record, with its tenant (R313, R314). -/
def State.ctxRecord (s : State) (kind k reason : Nat) (d : List Word) : State :=
  onlyIf (s.crec k) (·.record kind k reason d (s.ctxTenant k)) s

/-- The words a CTX_LATE or CTX_MISS record carries: the occurrence's target and A_p. -/
def State.tgtAp (s : State) (k : Nat) (t : W64) : List Word :=
  let ap := (s.base (s.cbase k)).ap
  [lo32 t, hi32 t, lo32 ap, hi32 ap]

/-- A release ordered late carries LATE: counted once, recorded, `once` telling that an occurrence that already carried LATE is not
recorded again (R159, R168). -/
def State.markLate (s : State) (o : Occ) (once : Bool) : State :=
  let k := o.ctx
  let s := { s with occs := mPut s.occs o.id { o with late := true } }
  let s := s.modCtx k fun c => { c with late := true }
  let s := onlyIf (!o.late) (·.bumpTw 0x0A k 11) s
  onlyIf (!(once && o.late)) (·.ctxRecord 0x08 k 0 (s.tgtAp k o.tgt)) s

/-- The first held write that leaves after its release was ordered marks its occurrence late (R159). -/
def State.lateWrite (s : State) (o : Occ) : State :=
  if o.lrel then s else (s.bumpTw 0x0A o.ctx 15).markLate { o with lrel := true } false

/-- The same of occurrence `o`. -/
def State.lateEntry (s : State) (o : Nat) : State := match mFind s.occs o with
  | some x => s.lateWrite x
  | none => s

/-! ## The cluster's outbound queue (R183, R161) -/

/-- Whether a queue item counts towards the 16 entries. -/
def QItem.counts : QItem → Bool
  | .freed _ _ => false
  | _ => true

/-- Entries of a cluster's queue that count towards its 16 (R161). -/
def Cluster.used (c : Cluster) : Nat := (c.queue.filter QItem.counts).length

/-- A queue takes new items; a request is raised when it was empty (R216). -/
def Cluster.withQueue (c : Cluster) (now : Nat) (q : List QItem) : Cluster :=
  { c with queue := q, reqAt := if c.queue.isEmpty && !q.isEmpty then now else c.reqAt }

/-- The first that waits for an entry takes a free one: its engine goes on as if its write had issued at this edge. A write whose
address failed its check faults instead, and takes none; a held write whose release was ordered marks its occurrence late as it enters
(R159, R183, R196, R202). -/
def State.refillOne (s : State) (c : Nat) : State :=
  let x := s.cluster c
  match x.stalled with
  | (t, e, it) :: rest =>
    if x.used < 16 then
      match it with
      | .bad _ => (s.setCluster c { x with stalled := rest }).modEng e fun y =>
          { y with stall := .none, faultAt := some (s.eng2, 0x4, false) }
      | .plain _ _ _ => (s.setCluster c { x.withQueue s.eng2 (x.queue ++ [it]) with stalled := rest }).modEng e fun y =>
          { y with stall := .none, readyAt := s.eng2 + (y.readyAt - t) }
      | .late _ o a d =>
        let s := (s.setCluster c { x.withQueue s.eng2 (x.queue ++ [.plain e a d]) with stalled := rest }).modEng e fun y =>
          { y with stall := .none, readyAt := s.eng2 + (y.readyAt - t) }
        s.lateEntry o
      | _ => s.setCluster c { x.withQueue s.eng2 (x.queue ++ [it]) with stalled := rest }
    else s
  | [] => s

/-- Engines stalled on a full queue enter, one for each free entry (R183, R202). -/
def State.refill (s : State) (c : Nat) : State := forEach (s.cluster c).stalled (fun _ s => s.refillOne c) s

/-- What waits for an entry takes its place by the edge it stalled at, then by engine (R202). -/
def insertStalled (x : Nat × Nat × QItem) : List (Nat × Nat × QItem) → List (Nat × Nat × QItem)
  | [] => [x]
  | y :: l => if x.1 < y.1 ∨ x.1 = y.1 ∧ x.2.1 < y.2.1 then x :: y :: l else y :: insertStalled x l

/-- Whether a cluster's queue takes no further entry at this edge. -/
def Cluster.full (x : Cluster) : Bool := decide (16 ≤ x.used) || !x.stalled.isEmpty

/-- An item waits for an entry of its cluster's queue; a write stalls its engine (R183, R202). -/
def State.stallOn (s : State) (e : Nat) (it : QItem) : State :=
  let s := s.modCluster (e / 16) fun x => { x with stalled := insertStalled (s.eng2, e, it) x.stalled }
  match it with
  | .marker _ => s
  | _ => s.modEng e fun y => { y with stall := .queue }

/-- An item enters a cluster's queue; on a full queue a plain write stalls its engine, and a burst marker waits for an
entry while its engine runs on (R183, R202, R204, R222). -/
def State.enqueue (s : State) (e : Nat) (it : QItem) : State :=
  let x := s.cluster (e / 16)
  if x.full then s.stallOn e it else s.setCluster (e / 16) (x.withQueue s.eng2 (x.queue ++ [it]))

/-- Items of a queue that a test selects leave it. -/
def State.dropQueued (s : State) (c : Nat) (out : QItem → Bool) : State :=
  (s.modCluster c fun x =>
    { x with queue := x.queue.filter (fun i => !out i), stalled := x.stalled.filter (fun i => !out i.2.2) }).refill c

/-! ## Locks (R221) -/

/-- Locked sequence `id`. -/
def State.lseq (s : State) (id : Nat) : Option LSeq := mFind s.seqs id
/-- A locked sequence replaced. -/
def State.setLseq (s : State) (q : LSeq) : State := { s with seqs := mPut s.seqs q.id q }

/-- An engine acquires a lock: the sequence begins, or takes one more (R204, R221). -/
def State.acquire (s : State) (e l : Nat) : State :=
  let take := fun (id : Nat) (s : State) =>
    (s.modLock l fun x => { x with owner := some id, engine := e, acq := s.eng2 }).bumpTw 0x12 l 2
  let s := s.modEng e fun y => { y with stall := .none, readyAt := s.eng2 + 2 }
  match (s.eng e).seqId with
  | some id =>
    match s.lseq id with
    | some q => take id (s.setLseq { q with locks := q.locks ++ [l] })
    | none => take id s
  | none =>
    let id := s.seqNext
    let s := { s with seqNext := id + 1 }
    let s := s.setLseq { id := id, engine := e, locks := [l], writes := [], outh := false, ph := .opened }
    take id (s.modEng e fun y => { y with seqId := some id })

/-- The waiter that issued its LOCK earliest, ties to the lower engine (R221). -/
def firstWaiter : List (Nat × Nat) → Option (Nat × Nat)
  | [] => none
  | w :: t => match firstWaiter t with
    | none => some w
    | some v => if v.1 < w.1 ∨ v.1 = w.1 ∧ v.2 < w.2 then some v else some w

/-- A lock is freed: its hold is shown, and its earliest waiter acquires it (R221). -/
def State.freeLock (s : State) (l : Nat) : State :=
  let x := s.lock l
  let held := min (s.eng2 - x.acq) 0xFFFF
  let w := s.tw 0x12 l 5
  let s := s.setTw 0x12 l 5 (setFld (setFld w 0 16 held) 16 16 (max held (fld w 16 16)))
  let s := s.modLock l fun y => { y with owner := none }
  match firstWaiter x.waiters with
  | some (t, e) => (s.modLock l fun y => { y with waiters := y.waiters.filter (· ≠ (t, e)) }).acquire e l
  | none => s

/-- A LOCK that a BUDGET fault cuts off in its second cycle has no effect: its lock is not acquired, the acquisition is not counted, and
the lock's earliest waiter acquires it (R181, R209, R221; DEDUCED, log 121). -/
def State.undoLock (s : State) (e : Nat) : State :=
  match (s.eng e).seqId.bind s.lseq with
  | some q => match q.locks.find? fun l => decide (s.eng2 < (s.lock l).acq + 2) with
    | some l =>
      let r := q.locks.filter (· ≠ l)
      let s := if r.isEmpty then { s with seqs := mErase s.seqs q.id }.modEng e fun y => { y with seqId := none }
        else s.setLseq { q with locks := r }
      let s := s.setTw 0x12 l 2 (s.tw 0x12 l 2 - 1)
      let x := s.lock l
      let s := s.modLock l fun y => { y with owner := none }
      match firstWaiter x.waiters with
      | some (t, f) => (s.modLock l fun y => { y with waiters := y.waiters.filter (· ≠ (t, f)) }).acquire f l
      | none => s
    | none => s
  | none => s

/-- The outcome of a sequence is written to its locks (R224). -/
def State.noteOutcome (s : State) (q : LSeq) (outcome : Nat) : State :=
  forEach q.locks (fun l s => s.modLock l fun x => { x with last := outcome }) s

/-- The lowest lock of a sequence. -/
def LSeq.lowest (q : LSeq) : Nat := q.locks.foldl min (q.locks.headD 0)

/-- Mask of a sequence's locks, as two words. -/
def LSeq.mask (q : LSeq) : W64 := q.locks.foldl (fun m l => m ||| (1#64 <<< l)) 0

/-- ABANDONED and TORN are counted, recorded and reported (R224). -/
def State.reportOutcome (s : State) (q : LSeq) (outcome sent : Nat) : State :=
  let s := forEach q.locks (fun l s => s.bumpTw 0x12 l (if outcome = 2 then 3 else 4)) (s.noteOutcome q outcome)
  let s := s.setReg 0x1C10 (wd (at_ q.lowest 0 6 + at_ outcome 6 2 + 0x100))
  let s := s.record 0x0C q.lowest outcome [wd q.engine, lo32 q.mask, hi32 q.mask, wd sent]
  onlyIf (bit (s.reg 0x1C00) 2) (·.house 0x5A10) s

/-- Every lock of a sequence is freed and the sequence is forgotten (R221). -/
def State.freeSeq (s : State) (q : LSeq) : State :=
  let s := { s with seqs := mErase s.seqs q.id }
  let s := s.modEng q.engine fun y => if y.seqId = some q.id then { y with seqId := none } else y
  forEach q.locks (fun l s => s.freeLock l) s

/-- The places of a queue that belong to a sequence. -/
def QItem.ofSeq (id : Nat) : QItem → Bool
  | .marker i => decide (i = id)
  | .freed _ (.seq i) => decide (i = id)
  | _ => false

/-- The sequence ends COMMITTED (R224). -/
def State.commitSeq (s : State) (q : LSeq) : State := (s.noteOutcome q 1).freeSeq q

/-- A sequence ends; its locks are freed at the next ENG_CLK edge (R221, R224, R225). -/
def State.freeNextEdge (s : State) (q : LSeq) : State :=
  (s.setLseq { q with ph := .ending (s.eng2 + 1) }).modEng q.engine fun y =>
    if y.seqId = some q.id then { y with seqId := none } else y

/-- The locks of every sequence that ended at an earlier ENG_CLK edge are freed (R221, R224). -/
def State.freeEnded (s : State) : State :=
  forEach (s.seqs.map Prod.snd) (fun q s => match q.ph with
    | .ending t => if t ≤ s.eng2 then s.freeSeq q else s
    | _ => s) s

/-- A squash ends a held sequence ABANDONED: its locks are freed at the squash's edge (R162, R169, R224). -/
def State.abandonNow (s : State) (q : LSeq) : State :=
  ((s.reportOutcome q 2 0).freeSeq q).dropQueued (q.engine / 16) (QItem.ofSeq q.id)

/-- The sequence ends ABANDONED: nothing of it is applied, and its locks are freed at the edge after (R224). -/
def State.abandonSeq (s : State) (q : LSeq) : State :=
  ((s.reportOutcome q 2 0).freeNextEdge q).dropQueued (q.engine / 16) (QItem.ofSeq q.id)

/-- The safe-write set of a lock (R225). -/
def State.safeSet (s : State) (l : Nat) (id : Option Nat) : List SafeWrite :=
  let n := min (fld (s.tw 0x12 l 1) 0 3) 5
  (List.range n).map fun j =>
    { addr := s.tw 0x12 l (6 + 2 * j), data := s.tw 0x12 l (7 + 2 * j), last := decide (j + 1 = n), seq := id, lock := l, once := id.isNone }

/-- The Sentinel has safe writes to make: its emergency request is raised when it had none (R217, R225, R308). -/
def State.pushSafe (s : State) (ws : List SafeWrite) : State :=
  { s with safeQ := s.safeQ ++ ws, safeAt := if s.safeQ.isEmpty then s.eng2 else s.safeAt }

/-- The burst is torn: its locks' safe-write sets follow, and the locks are freed after the last of them (R224, R225). -/
def State.tearSeq (s : State) (q : LSeq) (sent : Nat) : State :=
  let s := (s.reportOutcome q 3 sent).dropQueued (q.engine / 16) (QItem.ofSeq q.id)
  let ws := (q.locks.mergeSort (· ≤ ·)).flatMap fun l => s.safeSet l (some q.id)
  if ws.isEmpty then s.freeNextEdge q
  else (s.setLseq { q with ph := .torn }).pushSafe ws

/-- A sequence ends by a fault: ABANDONED before its burst's first write transfers, TORN during the burst (R184, R224). -/
def State.faultSeq (s : State) (q : LSeq) : State := match q.ph with
  | .burst n => if n = 0 then s.abandonSeq q else s.tearSeq q n
  | .torn => s
  | .ending _ => s
  | _ => s.abandonSeq q

/-- The locked sequences an engine owns: the one it is in, and those whose burst marker it placed (R184, R224). -/
def State.seqsOf (s : State) (e : Nat) : List LSeq :=
  (s.seqs.map Prod.snd).filter fun q => decide (q.engine = e) &&
    (decide ((s.eng e).seqId = some q.id) ||
      ((s.cluster (e / 16)).queue.any fun i => decide (i = .marker q.id)) ||
      ((s.cluster (e / 16)).stalled.any fun i => decide (i.2.2 = .marker q.id)))

end Sys2Proof.Machine
end

