-- ==== Sys2Proof/Machine/Arm.lean ====
section
/-! DEFINITION. Event contexts: arming, firing, release, squash, rebuild, and what the signals of a base do to them
(R147-R169). -/

namespace Sys2Proof.Machine

/-! ## What a context's words say -/

/-- CTX_CFG.ra. -/
def State.cra (s : State) (k : Nat) : Bool := bit (s.ccfg k) 5
/-- CTX_CFG.rep. -/
def State.crep (s : State) (k : Nat) : Bool := bit (s.ccfg k) 6
/-- CTX_CMP. -/
def State.ccmp (s : State) (k : Nat) : W64 := mk64 (s.tw 0x0A k 1) (s.tw 0x0A k 2)
/-- CTX_TGT. -/
def State.ctgt (s : State) (k : Nat) : W64 := mk64 (s.tw 0x0A k 7) (s.tw 0x0A k 8)
/-- CTX_TGT takes a target. -/
def State.setCtgt (s : State) (k : Nat) (t : W64) : State := (s.setTw 0x0A k 7 (lo32 t)).setTw 0x0A k 8 (hi32 t)
/-- The lead an arm uses: CTX_LEAD.lead for run-ahead, else 0. -/
def State.clead (s : State) (k : Nat) : W64 := if s.cra k then (s.ctx k).lead.setWidth 64 else 0
/-- CTX_PER.per as it was taken, 0 standing for one turn (R156). -/
def perOf (w : Word) : W64 := if w = 0 then BitVec.ofNat 64 (2 ^ 32) else w.setWidth 64

/-- Whether base `n` is a time base (R125). -/
def State.isTime (s : State) (n : Nat) : Bool := decide (fld (s.reg (0x1000 + 0x40 * n)) 1 2 = 2)
/-- The direction of a base: a time base is forward while its rate is not 0 (R134). -/
def State.bdir (s : State) (n : Nat) : Dir :=
  if s.isTime n then (if s.reg (0x1008 + 0x40 * n) = 0 then .still else .fwd) else (s.base n).dir
/-- PHS_VEL: PHS_TRATE on a time base. -/
def State.bvel (s : State) (n : Nat) : Word := if s.isTime n then s.reg (0x1008 + 0x40 * n) else (s.base n).vel

/-- Movement by `x` in a direction (R148). A base that is still counts as forward (log 16). -/
def along (d : Dir) (a x : W64) : W64 := if d = .rev then a - x else a + x
/-- The signed distance from `a` to `b` in a direction. -/
def dist (d : Dir) (a b : W64) : Int := if d = .rev then (a - b).toInt else (b - a).toInt

/-! ## Firing (R147, R154, R156, R157) -/

/-- The values a context's words give take effect at an arm or a repeat (R150). -/
def State.takeWords (s : State) (k : Nat) : State :=
  s.modCtx k fun c => { c with per := s.tw 0x0A k 3, lead := s.tw 0x0A k 4, lw := s.tw 0x0A k 5,
                               hlim := wd (fld (s.tw 0x0A k 6) 0 12) }

/-- The next occurrence of a repeating context, or none (R156). A target already behind A_p, or a launch angle already
reached, is taken as crossed. -/
def State.afterFire (s : State) (k : Nat) (t : W64) (dir : Dir) (ap : W64) : State :=
  if s.crep k then
    let s := s.takeWords k
    let nt := along dir t (perOf (s.ctx k).per)
    let ang := along (if dir = .rev then .fwd else .rev) nt (s.clead k)
    let s := s.setCtgt k nt
    let d := dist dir ap ang
    s.modCtx k fun c => { c with entries :=
      [{ ang := ang, tgt := nt, dir := dir, both := false, crossed := if d ≤ 0 then some s.rank else none, behind := decide (d < 0) }] }
  else s.modCtx k fun c => { c with entries := [] }

/-- An occurrence fires: its context's source is raised, or the raise is refused (R147, R154, R157). -/
def State.fire (s : State) (k : Nat) (t : W64) (dir : Dir) (either late : Bool) (ap : W64) : State :=
  let p := psnCtx + k
  if 2 ≤ (s.src p).q.length then
    let s := (s.bumpTw 0x0A k 14).ctxRecord 0x0A k 0 [wd p]
    let s := onlyIf (bit (s.reg 0x1400) 1) (·.house 0x5A0D) s
    s.afterFire k t dir ap
  else
    let s := onlyIf late (·.bumpTw 0x0A k 11) (s.bumpTw 0x0A k 10)
    let s := s.modCtx k fun c => { c with late := late }
    let s := onlyIf late (·.ctxRecord 0x08 k 0 (s.tgtAp k t)) s
    let s :=
      if s.cra k && s.toPool p then
        let id := s.occNext
        let reached := decide (dist dir ap t ≤ 0)
        let o := { id := id, ctx := k, tgt := t, dir := dir, either := either, raised := s.rank, late := late,
                   hlim := (s.ctx k).hlim.toNat, st := if reached then .ordered else .launched, entry := !reached : Occ }
        ({ s with occNext := id + 1, occs := mPut s.occs id o, edge := if reached then s.edge.ordered id else s.edge }).raise p
          { late := late, occ := some id }
      else s.raise p { late := late }
    s.afterFire k t dir ap

/-! ## Arming (R148, R149) -/

/-- Arm a context from an angle, against the given A_p (R148, R149). -/
def State.armAt (s : State) (k : Nat) (cmp ap : W64) : State :=
  let n := s.cbase k
  let s := s.modCtx k fun c => { c with entries := [], waiting := false }
  if (s.base n).st ≠ .run then s.modCtx k fun c => { c with waiting := true, waitAng := cmp }
  else
    let s := s.takeWords k
    let time := s.isTime n
    let dir : Dir := if time then .fwd else s.bdir n
    let lead := s.clead k
    let x := lo32 cmp
    let a := lo32 ap
    if !time && decide (dir = .still) then
      let df := (x - a).setWidth 64
      let dr := (a - x).setWidth 64
      let tf := ap + df
      let tr := ap - dr
      if df = 0 then (s.setCtgt k tf).fire k tf (if (s.base n).lastRev then .rev else .fwd) true false ap
      else if s.cra k ∧ (df.toNat ≤ lead.toNat ∨ dr.toNat ≤ lead.toNat) then
        let up := decide (df.toNat ≤ lead.toNat)
        let t := if up then tf else tr
        (s.setCtgt k t).fire k t (if up then .fwd else .rev) true false ap
      else
        (s.setCtgt k tf).modCtx k fun c =>
          { c with entries := [{ ang := tf - lead, tgt := tf, dir := .fwd, both := true },
                               { ang := tr + lead, tgt := tr, dir := .rev, both := true }] }
    else
      let lw := ((s.ctx k).lw.toNat : Int)
      let d0 : Int := if time then (cmp - ap).toInt else if dir = .rev then (a - x).toInt else (x - a).toInt
      let d : Int := if time then d0 else if d0 < 0 ∧ lw < -d0 then d0 + 2 ^ 32 else d0
      let late := decide (d < 0)
      let t := along dir ap (BitVec.ofInt 64 d)
      let s := s.setCtgt k t
      if d ≤ 0 then s.fire k t dir false late ap
      else if s.cra k ∧ d ≤ (lead.toNat : Int) then s.fire k t dir false late ap
      else s.modCtx k fun c =>
        { c with entries := [{ ang := along (if dir = .rev then .fwd else .rev) t lead, tgt := t, dir := dir, both := false }] }

/-- An arm waits for the end of its edge: it comes after the edge's base signals and sweep, against the final A_p (R150, R165). A block
that does not serve arms nothing: Open and the end of a takeover arm every enabled context (R250, R284, R291). -/
def State.armLater (s : State) (k : Nat) (cmp : Option W64) : State :=
  if s.serving then { s with edge := { s.edge with arms := s.edge.arms ++ [(k, cmp)] } } else s
/-- Arm a context from an angle, at the edge's end (R150). -/
def State.arm (s : State) (k : Nat) (cmp : W64) : State := s.armLater k (some cmp)

/-- The arm itself: against A_p, or, while the base rebuilds, at the rebuild's end (R150, R165, R166). -/
def State.armNow (s : State) (k : Nat) (cmp : W64) : State :=
  let n := s.cbase k
  match (s.base n).rebuild with
  | some _ =>
    (s.modCtx k fun c => { c with entries := [], waiting := false }).modBase n fun b =>
      { b with waitArms := b.waitArms.filter (fun w => decide (w.1 ≠ k)) ++ [(k, cmp)] }
  | none => s.armAt k cmp (s.base n).ap

/-! ## Release (R161) -/

/-- Freed places go ahead of every write that is not held, behind a head that may not change: a burst that is transferring,
a write that is presented. -/
def insertFreed (bursting : Bool) (new : List QItem) : List QItem → List QItem
  | [] => new
  | i :: t => match i with
    | .freed _ _ => i :: insertFreed false new t
    | _ => if bursting then i :: insertFreed false new t else new ++ i :: t

/-- Whether the head of a cluster's queue is a burst that has begun to transfer. -/
def State.bursting (s : State) (c : Nat) : Bool :=
  let going := fun id => match s.lseq id with
    | some q => match q.ph with
      | .burst n => decide (0 < n)
      | _ => false
    | none => false
  match (s.cluster c).queue with
  | .marker id :: _ => going id
  | .freed _ (.seq id) :: _ => going id
  | _ => false

/-- Whether a cluster's head is presented at the outbound port, where it stands until its transfer (R211). -/
def State.headShown (s : State) (c : Nat) : Bool := match (s.arb 0).holder with
  | some h => decide (h = c) && decide ((s.arb 0).since ≤ s.eng2)
  | none => false

/-- The release of an occurrence is ordered; its held places enter the outbound queue at the end of this edge, unless a squash of
the edge wins (R161, R162). -/
def State.orderRelease (s : State) (o : Nat) : State :=
  match mFind s.occs o with
  | some x => { s with occs := mPut s.occs o { x with st := .ordered, entry := false }, edge := s.edge.ordered o }
  | none => s

/-- Whether a held place is that of a sequence whose REL issued at this edge (R169). -/
def State.heldNow (s : State) : HeldPlace → Bool
  | .seq id => match s.lseq id with
    | some q => decide (q.relAt = s.rank)
    | none => false
  | .write _ _ => false

/-- The held places of a release ordered at this edge enter the outbound queue (R161). A sequence whose REL issued at this very edge
commits as an ordinary one, late (R169). The source leaves Completing at this edge, at which the places are released, as R102 and R161
read; the K100 timeline of R18 shows it Idle as its last held write issues (DEDUCED, log 122). -/
def State.finishRelease (s : State) (o : Nat) : State :=
  match mFind s.occs o with
  | some x =>
    let s := { s with occs := mPut s.occs o { x with places := [] } }
    let places := x.places.filter fun p => !s.heldNow p
    let s := match x.engine with
      | some e =>
        let c := e / 16
        let items := places.map (QItem.freed x.ctx)
        let b := s.bursting c || s.headShown c
        s.modCluster c fun y => y.withQueue s.eng2 (insertFreed b items y.queue)
      | none => s
    let s := forEach x.places (fun pl s => match pl with
      | .seq id => match s.lseq id with
        | some q =>
          let t := s.setLseq { q with ph := .queued }
          if q.relAt = s.rank then (t.lateEntry o).enqueue q.engine (.marker id) else t
        | none => s
      | .write _ _ => s) s
    (s.forgetOcc o).tryLeave (psnCtx + x.ctx)
  | none => s

/-! ## Squash (R162, R163) -/

/-- The squash itself: every held place is discarded (R162). Nothing follows yet. -/
def State.squashOnly (s : State) (x : Occ) (reason : Nat) : State :=
  let k := x.ctx
  let s := { s with occs := mPut s.occs x.id { x with st := .squashed, entry := false, places := [] }, edge := s.edge.unordered x.id }
  let s := forEach x.places (fun pl s => match pl with
    | .seq id => match s.lseq id with
      | some q => s.abandonNow q
      | none => s
    | .write _ _ => s) s
  let s := (s.bumpTw 0x0A k 13).modCtx k fun c => { c with sqr := reason }
  let s := s.setReg 0x140C (wd (at_ k 0 12 + at_ reason 12 4 + 0x10000))
  let s := s.ctxRecord 0x0B k reason [wd x.places.length]
  let s := onlyIf (bit (s.reg 0x1400) 0) (·.house 0x5A0C) s
  (s.forgetOcc x.id).tryLeave (psnCtx + k)

/-- The launched occurrences of a context whose release is not ordered, oldest first. -/
def State.launchedOf (s : State) (k : Nat) : List Occ :=
  (s.occs.filter fun x => decide (x.2.ctx = k) && x.2.st == .launched).map Prod.snd

/-- Whether a squash at this edge takes an occurrence: its release is not ordered, or was ordered at this very edge (R162). -/
def State.squashable (s : State) (x : Occ) : Bool :=
  x.st == .launched || (x.st == .ordered && s.edge.rel.contains x.id)

/-- The occurrences of a context a squash takes, oldest first. -/
def State.squashables (s : State) (k : Nat) : List Occ :=
  (s.occs.filter fun x => decide (x.2.ctx = k) && s.squashable x.2).map Prod.snd

/-- What follows a squash: the context is armed again from the oldest squashed target, or is disarmed (R163). -/
def State.afterSquash (s : State) (k : Nat) (t : W64) : State :=
  if bit (s.ccfg k) 8 then s.modCtx k fun c => { c with entries := [], waiting := false }
  else
    let s := (s.modCtx k fun c => { c with entries := [] }).setCtgt k t
    s.arm k (if s.isTime (s.cbase k) then t else (lo32 t).setWidth 64)

/-- Squash the occurrences of one context that a test selects, then follow sqpol once (R162, R163). -/
def State.squashWhere (s : State) (k reason : Nat) (sel : Occ → Bool) : State :=
  match (s.squashables k).filter sel with
  | [] => s
  | o :: rest => (forEach (o :: rest) (fun x s => s.squashOnly x reason) s).afterSquash k o.tgt

/-- Squash one occurrence, unless its release was ordered at an earlier edge (R162). -/
def State.squash (s : State) (o reason : Nat) : State :=
  match mFind s.occs o with
  | some x => if s.squashable x then (s.squashOnly x reason).afterSquash x.ctx x.tgt else s
  | none => s

/-- Disarm a context: its entries go, its launched occurrences are squashed with reason DISARM, and en is cleared
(R171). -/
def State.disarm (s : State) (k : Nat) : State :=
  let s := forEach (s.squashables k) (fun x s => s.squashOnly x 5) s
  let s := s.modCtx k fun c => { c with entries := [], waiting := false }
  let s := s.modBase (s.cbase k) fun b => { b with waitArms := b.waitArms.filter (fun w => decide (w.1 ≠ k)) }
  let s := { s with edge := { s.edge with arms := s.edge.arms.filter (fun w => decide (w.1 ≠ k)) } }
  s.setTw 0x0A k 0 (s.ccfg k &&& ~~~1#32)

/-! ## The signals of a base (R144, R165, R166) -/

/-- The contexts with occurrences on base `n` that a squash takes, ascending. -/
def State.launchedCtxs (s : State) (n : Nat) : List Nat :=
  ((s.occs.filter fun x => s.squashable x.2 && decide (s.cbase x.2.ctx = n)).map fun x => x.2.ctx).eraseDups.mergeSort (· ≤ ·)

/-- Squash on every context of a base, in ascending order. -/
def State.squashBase (s : State) (n reason : Nat) (sel : Occ → Bool) : State :=
  forEach (s.launchedCtxs n) (fun k s => s.squashWhere k reason sel) s

/-- The contexts of base `n` with a launch entry. -/
def State.armedOn (s : State) (n : Nat) : List Nat :=
  (s.ctxs.filter fun x => !x.2.entries.isEmpty && decide (s.cbase x.1 = n)).map Prod.fst

/-- A rebuild of a base's contexts starts, or restarts with a new snapshot (R166). -/
def State.startRebuild (s : State) (n : Nat) : State :=
  let s := s.modBase n fun b => { b with rebuild := some (b.ap, s.rank, 0) }
  s.bump 0x1410

/-- The number of contexts a rebuild that starts at this edge covers, known once the signals and arms of the edge are done (R166). -/
def State.sizeRebuild (s : State) (n : Nat) : State :=
  s.modBase n fun b => match b.rebuild with
    | some (ap, t, c) => { b with rebuild := some (ap, t, if t = s.rank then (s.armedOn n).length + b.waitArms.length else c) }
    | none => b

/-- Whether a release target is ahead of A_p in the base's direction, or anywhere but at it while still (R165). -/
def State.ahead (s : State) (n : Nat) (t : W64) : Bool :=
  let ap := (s.base n).ap
  if s.bdir n = .still then decide (t ≠ ap) else decide (0 < dist (s.bdir n) ap t)

/-- A base raises signals at this edge (R143, R144). -/
def State.raiseSig (s : State) (n : Nat) (g : Sigs) : State :=
  s.modBase n fun b => { b with sig :=
    { squash := b.sig.squash || g.squash, held := b.sig.held || g.held, reverse := b.sig.reverse || g.reverse,
      discont := b.sig.discont || g.discont, run := b.sig.run || g.run } }

/-- The release entries of a base wait for a crossing that comes after a DISCONT (R165). -/
def State.waitAnew (s : State) (n : Nat) : State :=
  { s with occs := s.occs.map fun x =>
      if x.2.st = .launched ∧ s.cbase x.2.ctx = n then (x.1, { x.2 with crossed := none, taken := none }) else x }

/-- The scheduler applies a base's signals in their order (R165). -/
def State.signals (s : State) (n : Nat) (g : Sigs) : State :=
  let s := onlyIf (g.reverse || g.discont) (·.startRebuild n) s
  let s := onlyIf g.squash (·.squashBase n 2 fun _ => true) s
  let s := onlyIf g.held (fun s => s.squashBase n 3 fun x => bit (s.ccfg x.ctx) 7) s
  let s := onlyIf g.reverse (·.squashBase n 1 fun x => !x.either) s
  let s := onlyIf g.discont (fun s => (s.squashBase n 4 fun x => !s.ahead n x.tgt).waitAnew n) s
  onlyIf g.run (fun s =>
    forEach ((s.ctxs.filter fun x => x.2.waiting && decide (s.cbase x.1 = n)).map Prod.fst)
      (fun k s => s.arm k (s.ctx k).waitAng) s) s

/-- Whether `x` is crossed when A_p goes from `a` to `b` (R151). -/
def crosses (dir : Dir) (a b x : W64) : Bool :=
  if dir = .rev then decide ((x - a).toInt < 0) && decide ((b - a).toInt ≤ (x - a).toInt)
  else decide (0 < (x - a).toInt) && decide ((x - a).toInt ≤ (b - a).toInt)

/-- Whether going from `a` to `b` crosses an angle with the given place in the turn (R258). -/
def crossesTurn (dir : Dir) (a b : W64) (ang : Word) : Bool :=
  if dir = .rev then
    let d := (lo32 a - ang).toNat
    decide (d ≠ 0) && decide ((d : Int) ≤ (a - b).toInt) || decide (d = 0) && decide ((2 ^ 32 : Int) ≤ (a - b).toInt)
  else
    let d := (ang - lo32 a).toNat
    decide (d ≠ 0) && decide ((d : Int) ≤ (b - a).toInt) || decide (d = 0) && decide ((2 ^ 32 : Int) ≤ (b - a).toInt)

/-- A swap that waits for base `n` sees its angle crossed (R258). -/
def State.swapMove (s : State) (n : Nat) (dir : Dir) (a b : W64) : State :=
  if s.ldr.spend && bit (s.reg 0x241C) 0 && decide (fld (s.reg 0x241C) 1 4 = n) && s.ldr.swapCrossed.isNone &&
      crossesTurn dir a b (s.reg 0x2420) then
    { s with ldr := { s.ldr with swapCrossed := some s.rank } }
  else s

/-- Every entry of base `n` whose angle A_p crosses is marked (R151). -/
def State.markMoves (s : State) (n : Nat) (a b : W64) : State :=
  let dir : Dir := match s.bdir n with
    | .still => if 0 < (b - a).toInt then .fwd else .rev
    | d => d
  let hit := fun (both : Bool) (d : Dir) (x : W64) => (both || decide (d = dir)) && crosses dir a b x
  { s with
    ctxs := s.ctxs.map fun x =>
      if s.cbase x.1 = n then
        (x.1, { x.2 with entries := x.2.entries.map fun e =>
          if e.crossed.isNone && hit e.both e.dir e.ang then { e with crossed := some s.rank, dir := if e.both then dir else e.dir }
          else e })
      else x
    occs := s.occs.map fun x =>
      if s.cbase x.2.ctx = n && x.2.entry && x.2.crossed.isNone && hit x.2.either x.2.dir x.2.tgt then
        (x.1, { x.2 with crossed := some s.rank })
      else x }

/-- A MOVE of base `n`: it is seen by a swap that waits, and crosses entries (R151, R258). -/
def State.moved (s : State) (n : Nat) (a b : W64) : State :=
  let dir : Dir := match s.bdir n with
    | .still => if 0 < (b - a).toInt then .fwd else .rev
    | d => d
  (s.swapMove n dir a b).markMoves n a b

end Sys2Proof.Machine
end

