-- ==== Sys2Proof/Machine/Discard.lean ====
section
/-! DEFINITION. Discards by recovery and the loss of a destination (R101, R115, R363, R364). -/

namespace Sys2Proof.Machine

/-- The occurrences of a list of instances. -/
def occsOf (l : List Inst) : List Nat := l.filterMap fun i => i.occ

/-- The ordinary offer of a source at a destination ends for a discard, by RETRACT when a bundle shows it; its entry is not
reinstated (R101, R116). -/
def State.dropOffer (s : State) (d p : Nat) : State :=
  let s := s.modDst d fun y => { y with form := y.form.filter fun f => decide (f.1 ≠ p) }
  let x := s.dst d
  match x.offer with
  | some o =>
    if o.psn = p then
      let s := s.modDst d fun y => { y with offer := none, timer := none, retractAt := none, lostAt := some s.rank }
      if d < 512 then (s.bumpTw 0x08 d 6).bumpTw 0x01 p 7 else s
    else s.modDst d fun y => { y with parked := y.parked.filter fun o => decide (o.psn ≠ p) }
  | none => s.modDst d fun y => { y with parked := y.parked.filter fun o => decide (o.psn ≠ p) }

/-- Every instance of a source that is not yet Active ends FLUSHED, and the source goes Idle (R101). -/
def State.flushAll (s : State) (p : Nat) : State :=
  let q := (s.src p).q
  let s := s.modSrc p fun x =>
    { x with q := [], st := .idle, place := .none, since := s.rank, key := {}, dst := 0, doom := false, replay := false, told := none }
  let s := forEach q (fun i s => s.flushInst p i) s
  let s := forEach (occsOf q) (fun o s => (s.squash o 8).forgetOcc o) s
  if isWired p then s.levelTry p else s

/-- The instances queued behind the oldest are discarded: each ends FLUSHED, and its occurrence is squashed (R101, R162, R243). -/
def State.flushRest (s : State) (p : Nat) : State :=
  forEach (occsOf ((s.src p).q.drop 1)) (fun o s => (s.squash o 8).forgetOcc o) (s.flushQueue p)

/-- The oldest instance of a source, discarded while Active or Completing, frees its pool entry and sends its completion at once (R70,
R74, R76, R363). -/
def State.freeFlushed (s : State) (p : Nat) : State :=
  match (s.src p).q with
  | i :: rest => (s.sendDone p i 5).modSrc p fun x => { x with q := { i with entry := none } :: rest }
  | [] => s

/-- A discard by recovery of every instance of a source (R101, R243, R363, R364). -/
def State.discard (s : State) (p : Nat) : State :=
  let x := s.src p
  match x.st with
  | .idle => s
  | .pending =>
    if x.place = .direct then (s.flushRest p).modSrc p fun y => { y with doom := true }
    else (s.withdraw p).flushAll p
  | .staged =>
    if x.key.cls = 0 then (s.flushRest p).modSrc p fun y => { y with doom := true }
    else (s.dropOffer x.dst p).flushAll p
  | .active =>
    let s := s.flushRest p
    let s := (s.modSrc p fun y => { y with st := .completing, since := s.rank, flushed := true, kept := true }).bumpTw 0x01 p 9
    let s := s.freeFlushed p
    forEach (occsOf (x.q.take 1)) (fun o s => s.squash o 8) s
  | .completing =>
    let s := s.flushRest p
    let s := onlyIf (!x.flushed) (·.bumpTw 0x01 p 9) s
    let s := (s.modSrc p fun y => { y with flushed := true }).freeFlushed p
    forEach (occsOf (x.q.take 1)) (fun o s => s.squash o 8) s

/-- An Active instance of a target that stops being up follows dpol; one discarded while Active leaves (R115, R363). -/
def State.lostAt (s : State) (d p : Nat) : State :=
  let x := s.src p
  if x.st = .completing then s.leave p
  else if bit (s.tcfg d) 2 then
    let s := s.modSrc p fun y => { y with st := .pending, inner := false, outer := none, since := s.rank, pendAt := s.rank }
    if x.key.cls = 0 then s.modSrc p fun y => { y with place := .direct } else s.enter p
  else s.completing p true

/-- A target stops being up: its offers are withdrawn and its Active instances follow dpol (R115). -/
def State.targetLost (s : State) (d : Nat) : State :=
  let l := (s.dst d).nest
  let s := (s.withdrawOffers d).setNest d []
  forEach l (fun p s => s.lostAt d p) s

/-- A pool stops being up: its unclaimed offer is withdrawn; Active instances belong to their engines (R115, R116). -/
def State.poolLost (s : State) (d : Nat) : State := s.withdrawOffers d

end Sys2Proof.Machine
end

