-- ==== Sys2Proof/Machine/Resets.lean ====
section
/-! DEFINITION. The resets: what each clears and keeps, the retention record, and the warm reset's care for locked
sequences (R11, R226, R251, R280, R305, R318, R351). -/

namespace Sys2Proof.Machine

/-- Whether a register keeps its value through BLK_RST_N (R11). -/
def keptKey (k : Nat) : Bool := match regAt (k % 0x4000) with
  | some r => r.kept
  | none => false

/-- Whether a table keeps its words through BLK_RST_N: the recorder's tables (17). -/
def keptTbl (k : Nat) : Bool := decide (0x19 * 0x80000 ≤ k)

/-- A pin's level outlives a reset; the filter follows it again (log 4). -/
def InSt.fresh (x : InSt) : InSt := { pin := x.pin, level := x.pin }

/-- A target's UP pin outlives a reset. -/
def Dst.fresh (x : Dst) : Dst := { upPin := x.upPin }

/-- What BLK_RST_N leaves of the loader (R251, R267): the memory, an erase it runs, the retention record, the failure
count and the lockout. -/
def Ldr.fresh (l : Ldr) : Ldr :=
  { nvm := l.nvm, nvmSize := l.nvmSize, erase := l.erase, ret := l.ret, fails := l.fails, lockout := l.lockout,
    pins := l.pins, image := l.image, progBusy := l.progBusy }

/-- What BLK_RST_N leaves of the Sentinel: the safe state, the request and the device's ladder (R305, R309). -/
def Snt.fresh (n : Snt) : Snt :=
  { safe := n.safe, pcreq := n.pcreq, funcs := mKeep (· == 5408) n.funcs }

/-- What BLK_RST_N leaves of the recorder: the lantern domain's calendar, operating time and last-gasp registers, and in retention SRAM
the degraded area and the copy of the counts; table 0x1C and the last-gasp records that wait for their SLOW_CLK edge stay too (R310, R318,
R323, R328-R331, R351). -/
def Recorder.fresh (l : Recorder) : Recorder :=
  { area := l.area, gasp := l.gasp, gaspNext := l.gaspNext, gaspSeen := l.gaspSeen, gaspSeq := l.gaspSeq, gaspQ := l.gaspQ, hist := l.hist, sec := l.sec, cv := l.cv, calLost := l.calLost,
    secEdge := l.secEdge, opSec := l.opSec, opHour := l.opHour, keep := l.keep, keepOk := l.keepOk,
    ckptSec := l.ckptSec }

/-- How powered a state is. -/
def DomSt.level : DomSt → Nat
  | .on => 2
  | .ret => 1
  | .off => 0

/-- The order in which domains are asked (R271). -/
def strikeOrder : List Nat := [3, 4] ++ (List.range 32).map (8 + ·) ++ [1, 0, 2]

/-- The domains that are not On, or whose power the power manager was asked to lower, in the order of their return (R276, R280). -/
def Pwr.toReturn (p : Pwr) : List Nat :=
  (strikeOrder.filter fun d => decide (mGet (fun _ => .on) p.dom d ≠ .on) || decide (mGet (fun _ => .on) p.req d ≠ .on)).reverse

/-- What the strike controller keeps through BLK_RST_N: its statuses, pins and the domains' states; the retention SRAM switch is closed where
it is open, and the domains that are not On are then returned one at a time (R276, R277, R280). -/
def Pwr.fresh (p : Pwr) (slowEdge : Nat) : Pwr :=
  let up := (if p.ropen then [5] else []) ++ p.toReturn
  { dom := p.dom, ropen := p.ropen, cstat := p.cstat, ackPin := p.ackPin, ackMid := p.ackMid, ack := p.ack,
    pmPin := p.pmPin, pmMid := p.pmMid, pmReq := p.pmReq, wakeIn := p.wakeIn, i2cAck := p.i2cAck,
    req := match up with
      | d :: _ => mSet (fun _ => .on) p.req d .on
      | [] => p.req,
    trans := if up.isEmpty then none else
      some { ph := .raising, tgt := [], ropen := false, raise := up, acked := [], ask := [], asked := 0, stopped := [],
             await := [], at_ := slowEdge, next := slowEdge, wake := false, pm := false, cold := false, boot := true } }

/-- The cycles since the SLOW_CLK edge, kept as the count of RANK_CLK edges restarts (R312). -/
def State.keepSub (s : State) : State := s.modLog fun l => { l with subBase := s.rank - l.slowRank + l.subBase }

/-- The part every reset shares: counts restart, every queue, sequencer and dynamic part empties (R11, R58, R76, R84,
R100, R135, R174, R214, R226). -/
def State.clearDynamic (s : State) : State :=
  { s with
    rank := 0, regs := mKeep keptKey s.regs, edge := {}, resp := {}, answered := [], wins := [], ticks := 0, tickAt := 0,
    ins := s.ins.filterMap (fun x => if x.2.pin then some (x.1, x.2.fresh) else none),
    fifo := [], rq := [], lastMsg := none, srcs := [],
    dsts := s.dsts.filterMap (fun x => if x.2.upPin then some (x.1, x.2.fresh) else none),
    banks := [], usage := [], decayAt := 0, bases := [], ctxs := [], occs := [], occNext := 0, engs := [], pools := [],
    clusters := [], locks := [], seqs := [], seqNext := 0, arbs := [], stallRun := 0, outLast := none,
    outAt := none, flush := [], mapStat := 0, mapHeld := [], mir := { strap := s.mir.strap },
    snt := s.snt.fresh }

/-- BLK_RST_N asserts and is released with the straps shown (R11, R251, R280, R318, R351). The copies of the lantern
registers show the live values again (R33). -/
def State.blockReset (s : State) (profsel : Nat) (strap : Bool) : State :=
  let s := s.keepSub.clearDynamic
  { s with
    tbl := mKeep keptTbl s.tbl, shadowTbl := [], safeQ := [],
    ldr := { s.ldr.fresh with pins := profsel, sel := profsel,
                              ret := { s.ldr.ret with override := false, same := false } },
    pwr := s.pwr.fresh s.slowEdge, mir := { strap := strap },
    log := { s.log.fresh with slowRank := 0, subBase := s.log.subBase } }

/-- Lantern power-on reset: every field takes its power-on value; the surroundings (memory contents and pins) stay
(R11, R351; log 4, log 8). -/
def State.powerOn (s : State) : State :=
  { (State.reset) with
    ins := s.ins.filterMap (fun x => if x.2.pin then some (x.1, x.2.fresh) else none)
    dsts := s.dsts.filterMap (fun x => if x.2.upPin then some (x.1, x.2.fresh) else none)
    ldr := { nvm := s.ldr.nvm, nvmSize := s.ldr.nvmSize, erase := s.ldr.erase, progBusy := s.ldr.progBusy, pins := s.ldr.pins,
             sel := s.ldr.pins }
    pwr := { wakeIn := s.pwr.wakeIn, pmPin := s.pwr.pmPin }
    mir := { strap := s.mir.strap }
    pending := s.pending
    free := s.free }

/-- The retention record is rewritten: with the open configuration, or, while none is open, with what it held of one (R251, the table
"Retention record"; log 73). -/
def State.writeRetention (s : State) (memkept : Bool) : State :=
  let l := s.ldr
  let open_ := decide (l.phase = .opened)
  { s with ldr := { l with ret :=
      { l.ret with valid := l.ret.valid || open_,
                   hseq := if open_ then (l.hdr.map Header.hseq).getD l.ret.hseq else l.ret.hseq,
                   epoch := if open_ then l.epoch else l.ret.epoch,
                   sel := if l.ret.override ∨ !open_ then l.ret.sel else l.sel, memkept := memkept,
                   erasing := l.erase.isSome || !l.requeue.isEmpty,
                   esect := (l.erase.map Erase.addr).getD (l.requeue.headD 0) } } }

/-- Whether a register key is one the image holds: outside D_LANTERN, in any window, of the registers a test selects (R250). -/
def imageKey (which : Nat → Bool) (k : Nat) : Bool :=
  !keptKey k && decide (regDomain (k % 0x4000) ≠ 5) && which (k % 0x4000)

/-- The image of the page registers outside D_LANTERN, kept beside the retention record (R250, R268). -/
def State.savePage (s : State) (which : Nat → Bool) : State :=
  let keep := s.regs.filter fun x => imageKey which x.1
  let rest := s.ldr.image.filter fun x => !imageKey which x.1
  { s with ldr := { s.ldr with image := (rest ++ keep).mergeSort (fun a b => a.1 ≤ b.1) } }

/-- The registers of the domains that hold them: those of a domain that is Off stand in the image already (R268). -/
def State.pageUp (s : State) (off : Nat) : Bool := decide (s.dom (regDomain off) ≠ .off)

/-- The page registers a test selects take their values from the image (R252, R268). -/
def State.restorePage (s : State) (which : Nat → Bool) : State :=
  let s := { s with regs := s.regs.filter fun x => !imageKey which x.1 }
  forEach (s.ldr.image.filter fun x => imageKey which x.1) (fun x s => s.setReg x.1 x.2) s

/-- The safe writes that outlive a warm reset: those of torn sequences, those carried over an earlier reset, and the sets of an entry into
the safe state that the port has not made yet (R226, R308). -/
def State.carried (s : State) (torn : List LSeq) : List SafeWrite :=
  (s.safeQ.filter fun w => match w.seq with
    | some id => torn.any fun q => decide (q.id = id)
    | none => true).map fun w => { w with seq := none }

/-- Whether a table keeps its words through a warm reset that keeps main SRAM: all but the function table and the loader's buffer, which
are no configuration regions (R252, R351). -/
def warmTbl (k : Nat) : Bool := decide (k / 0x80000 ≠ 0x18) && decide (k / 0x80000 ≠ 0x17)

/-- Whether a flush runs (R325, R326). -/
def State.flushRuns (s : State) : Bool := s.ldr.jobs.any fun j => match j.use with
  | .flush _ _ _ => true
  | _ => false

/-- What a warm reset leaves of the recorder: what BLK_RST_N leaves, the Flysheet with its pointers and a freeze with its side buffer, the
lock records that the reset's own assertion called for, and a flush that ran is asked for again (R226, R318, R319, R325, R351). -/
def Recorder.warm (l : Recorder) (flush : Bool) : Recorder :=
  { l with slowRank := 0, asmAt := 0, sideAt := 0, flushWant := l.flushWant || flush,
           ckptOn := false, cstat := 0, degr := false, reqs := l.reqs.filter (fun r => decide (r.kind = 0x0C)),
           tally := [], armed := none, clearing := false, clearQ := none, asmRank := none, asmOut := none, pfWant := 0, gsN := 0,
           gsStop := false,
           drain := !l.side.isEmpty }

/-- The warm reset: locked sequences end under R226 and leave their records, the retention record is rewritten with the page-register
image, and every field that BLK_RST_N sets is set, but for what the next start may restore: the tables while memkept = 1, the
Flysheet and its pointers; the inputs' filtered levels follow their pins, and the domains return to On (R11, R40, R226, R251, R318, R346,
R351). -/
def State.warmReset (s : State) : State :=
  let torn := (s.seqs.map Prod.snd).filter fun q => match q.ph with
    | .burst n => decide (0 < n)
    | .torn => true
    | _ => false
  let s := { s with log := { s.log with reqs := [] } }
  let s := forEach (s.seqs.map Prod.snd) (fun q s => match q.ph with
    | .torn => s
    | _ => s.faultSeq q) s
  let s := s.writeRetention s.ldr.ret.memkept
  let s := if s.ldr.phase = .opened ∨ s.ldr.phase = .failed then s.savePage s.pageUp else s
  let kept := s.ldr.ret.memkept && s.ldr.ret.same
  let safe := s.carried torn
  let flush := s.flushRuns
  let s := s.keepSub.clearDynamic
  let s := { s with
    tbl := s.tbl.filter fun x => if kept then warmTbl x.1 else keptTbl x.1
    shadowTbl := []
    safeQ := safe
    safeAt := 0
    pwr := s.pwr.fresh s.slowEdge
    ldr := { s.ldr.fresh with sel := if s.ldr.ret.override then s.ldr.ret.sel else s.ldr.pins, kept := kept }
    log := s.log.warm flush }
  if kept then s.liveLevels else s

end Sys2Proof.Machine
end

