-- ==== Sys2Proof/Machine/PowerOps.lean ====
section
/-! DEFINITION. Power domains, transitions and the strike, as operations the power commands share (R268-R280). -/

namespace Sys2Proof.Machine

/-- The two-bit code of a domain state (the table PWR_DTGT0). -/
def DomSt.code : DomSt → Nat
  | .on => 0
  | .ret => 1
  | .off => 2

/-- A domain's target in a set. -/
def tgtOf (t : SMap DomSt) (d : Nat) : DomSt := mGet (fun _ => .on) t d

/-- A set from a function of the domain. -/
def domSet (f : Nat → DomSt) : SMap DomSt :=
  ([0, 1, 2, 3, 4] ++ (List.range 32).map (8 + ·)).foldl (fun m d => mSet (fun _ => .on) m d (f d)) []

/-- The set of a global mode and its retention switch (the table "Global modes"). -/
def modeSet (m : Nat) : Option (SMap DomSt × Bool) :=
  match m with
  | 0 => some ([], false)
  | 1 => some (domSet (fun d => if 8 ≤ d ∨ d = 4 then .ret else .on), false)
  | 2 => some (domSet (fun d => if d = 2 then .ret else .off), false)
  | 3 => some (domSet (fun _ => .off), false)
  | 4 => some (domSet (fun _ => .off), true)
  | _ => none

/-- PWR_MSTAT.mode (R270). -/
def State.mode (s : State) : Nat :=
  ((List.range 5).find? fun m => decide (modeSet m = some (s.pwr.dom, s.pwr.ropen))).getD 7

/-- Whether a set of targets is valid (R269). -/
def validSet (t : SMap DomSt) (ropen : Bool) : Bool :=
  let on := fun d => decide (tgtOf t d = .on)
  strikeOrder.all (fun d => d == 2 || !on d || (on 2 && (d == 0 || on 0))) &&
  (!ropen || strikeOrder.all fun d => decide (tgtOf t d = .off))

/-- A two-bit field of PWR_DTGT as a state, none for 0b11. -/
def domCode (n : Nat) : Option DomSt := match n with
  | 0 => some .on
  | 1 => some .ret
  | 2 => some .off
  | _ => none

/-- The two-bit code of a domain's field in PWR_DTGT0-PWR_DTGT2. -/
def State.dtgt (s : State) (d : Nat) : Nat :=
  if d < 8 then fld (s.reg 0x2808) (2 * d) 2
  else if d < 24 then fld (s.reg 0x280C) (2 * (d - 8)) 2 else fld (s.reg 0x2810) (2 * (d - 24)) 2

/-- The targets in PWR_DTGT0-PWR_DTGT2, none when a field holds 0b11 (R269). -/
def State.dtgtSet (s : State) : Option (SMap DomSt) :=
  if strikeOrder.all fun d => (domCode (s.dtgt d)).isSome then some (domSet fun d => (domCode (s.dtgt d)).getD .on) else none

/-- The pitch-table fields of a domain (the table PWR_PITCH_d). -/
def State.pitch (s : State) (d lo : Nat) : Nat := fld (s.reg (0x2880 + 4 * d)) lo 8

/-! ## Function indices (the function table) -/

/-- Function index of engine e, cluster c, context k, target t, tenant v, the device. -/
def fnEng (e : Nat) : Nat := e
def fnCluster (c : Nat) : Nat := 512 + c
def fnCtx (k : Nat) : Nat := 544 + k
def fnTarget (t : Nat) : Nat := 4640 + t
def fnTenant (v : Nat) : Nat := 5152 + v
def fnDevice : Nat := 5408

/-- The ladder of a function. -/
def State.func (s : State) (f : Nat) : Func := mGet (fun _ => {}) s.snt.funcs f
/-- The ladder of a function, changed. -/
def State.modFunc (s : State) (f : Nat) (g : Func → Func) : State :=
  { s with snt := { s.snt with funcs := mSet (fun _ => {}) s.snt.funcs f (g (s.func f)) } }

/-! ## What a domain loses and restores (R268) -/

/-- Registers of a domain, by offset. -/
def inDom (d off : Nat) : Bool := decide (regDomain off = d)

/-- Every position or phase base in Unref or Run enters Held for want of a sample (R136, R276). -/
def State.holdBases (s : State) : State :=
  forEach (List.range 16) (fun n s =>
    let b := s.base n
    if !s.isTime n && (b.st == .unref || b.st == .run) then
      let s := (s.modBase n fun b => { b with st := .held, fheld := true }).bumpTw 0x09 n 3
      let s := s.record 0x06 n 0 [lo32 b.ap, hi32 b.ap]
      s.raiseSig n { held := true }
    else s) s

/-- The base is disabled, and enabled when `en` is 1: Held for want of a sample at angle 0, or, for a time base, Run at
angle 0 (R135). -/
def State.enableBase (s : State) (n : Nat) : State :=
  let s := s.modBase n fun b => { b with st := .disabled, fheld := false, ihold := false, hback := false }
  if bit (s.reg (0x1000 + 0x40 * n)) 0 then
    let time := s.isTime n
    let s := s.modBase n fun b =>
      { b with st := if time then .run else .held, ai := 0, ap := 0, aidx := 0, vel := 0, dir := .still, lastRev := false,
               fheld := !time, refd := false, lastAng := none, fseq := none }
    s.raiseSig n (if time then { run := true } else { held := true })
  else s

/-- A phase base whose PHS_CFG.en the image restores starts as R135 gives, where the block is open and no start follows (R268). -/
def State.restartBases (s : State) : State :=
  if s.ldr.phase = .opened then
    forEach (List.range 16) (fun n s => if bit (s.reg (0x1000 + 0x40 * n)) 0 then s.enableBase n else s) s
  else s

/-- The mirror logic works again with the block open: with MIR_CFG.en = 1 its role is Solo (R268, R283). -/
def State.mirAgain (s : State) : State :=
  if bit (s.reg 0x2C00) 0 ∧ s.ldr.phase = .opened ∧ s.mir.role = .off then
    { s with mir := { s.mir with role := .solo, helloAt := s.rank } } else s

/-- What of a window lives on while D_CORE is Off: its posted-write queue, which only the resets of R34 empty (log 99). -/
def Win.ofLantern (w : Win) : Win := { posted := w.posted, postedAt := w.postedAt, appliedAt := w.appliedAt }

/-- The accesses that a domain's units hold, which they can answer no more. -/
def State.heldAccesses (s : State) (d : Nat) : List PortAccess := match d with
  | 0 => (s.wins.flatMap fun x => x.2.held ++ x.2.recHeld) ++ s.mapHeld
  | 4 => s.ldr.held
  | _ => []

/-- A domain's contents are lost as it enters Off; its page registers stand in the image, and the accesses it holds are answered as of a
domain that is not On (R29, R268, R348). The context store, and the heaps, shelf and pool of the sources, are regions of main SRAM (R250,
R295), so they go with D_MEM (DEDUCED, log 99). The image header's settings and the bad-sector map stay with the port until the next start
(R245, R262), the recorder's jobs with the recorder, and FENCE with D_LANTERN (R347). -/
def State.loseDomain (s : State) (d : Nat) : State :=
  let s := s.answerOff (s.heldAccesses d)
  let s := s.savePage (inDom d)
  let s := { s with regs := s.regs.filter fun x => !imageKey (inDom d) x.1 }
  match d with
  | 0 =>
    { s with srcs := [], dsts := s.dsts.filterMap (fun x => if x.2.upPin then some (x.1, x.2.fresh) else none),
             ins := s.ins.filterMap (fun x => if x.2.pin then some (x.1, x.2.fresh) else none),
             banks := [], usage := [], rq := [], lastMsg := none, seqs := [], locks := [], arbs := [], safeQ := [],
             outLast := none, ticks := 0, tickAt := s.rank, decayAt := s.rank,
             fifo := [], flush := [], mapStat := 0, mapHeld := [], pools := [],
             outAt := none, stallRun := 0, safeAt := 0,
             wins := s.wins.filterMap fun x =>
               if x.2.posted.isEmpty && x.2.appliedAt.isNone then none else some (x.1, x.2.ofLantern),
             tbl := s.tbl.filter fun x => decide (tblDomain (x.1 / 0x80000) ≠ 0),
             ldr := { s.ldr with jobs := s.ldr.jobs.filter fun j => decide (j.req = 0) },
             log := { s.log with reqs := [], tally := [], cstat := 0, degr := false, drain := false, ckptOn := false, clearing := false,
                                 clearQ := none, pfWant := 0,
                                 asmAt := 0, sideAt := 0 },
             snt := s.snt.fresh }
  | 1 => { s with bases := [], ctxs := [], occs := [],
                  tbl := s.tbl.filter fun x => decide (x.1 / 0x80000 ≠ 0x09) }
  | 2 => { s with tbl := s.tbl.filter fun x => decide (tblDomain (x.1 / 0x80000) ≠ 2 ∧ x.1 / 0x80000 ≠ 0x0A), shadowTbl := [],
                  srcs := [], dsts := s.dsts.filterMap (fun x => if x.2.upPin then some (x.1, x.2.fresh) else none),
                  seqs := [], mir := { s.mir with journal := [] },
                  snt := { s.snt with funcs := s.snt.fresh.funcs },
                  ldr := { s.ldr with ret := { s.ldr.ret with memkept := false, same := false } },
                  log := { s.log with fly := [], side := [] } }
  | 3 => { s with mir := { strap := s.mir.strap, fence := s.mir.fence, fack := s.mir.fack, fenceAt := s.mir.fenceAt } }
  | 4 => { s with tbl := s.tbl.filter (fun x => decide (tblDomain (x.1 / 0x80000) ≠ 4)),
                  ldr := { s.ldr with jobs := s.ldr.jobs.filter (fun j => decide (j.req ≠ 0)), busy := false, unl := [],
                                      transOn := false, held := [] } }
  | _ =>
    if 8 ≤ d then
      { s with engs := s.engs.filter (fun x => decide (x.1 / 16 ≠ d - 8)), clusters := mErase s.clusters (d - 8) }
    else s

/-- The escalation time of a step, in SLOW_CLK cycles (R302). -/
def State.escTime (s : State) (step : Nat) : Nat :=
  32 * (if step = 1 then fld (s.reg 0x3018) 0 16 else if step = 2 then fld (s.reg 0x3018) 16 16 else fld (s.reg 0x301C) 0 16)

/-- A step is over: the function's escalation timer starts (R302). A commanded step leaves s and the timer as they are
(R306). -/
def State.endTimer (s : State) (f : Nat) : State :=
  let x := s.func f
  s.modFunc f fun y =>
    if x.cmd then { y with busy := false, cmd := false, endAt := none, owe := none }
    else { y with busy := false, endAt := none, owe := none, tmr := some s.slowEdge, len := s.escTime x.step }

/-- The same, when the function carries a step out. -/
def State.stepOver (s : State) (f : Nat) : State := if (s.func f).busy then s.endTimer f else s

/-- What an engine shows when its domain is On and it runs nothing (R174). -/
def State.restEng (s : State) (e : Nat) : EngSt := if bit (s.tw 0x0B e 0) 0 then .idle else .stopped

/-- The engines of a cluster show what their RFX_ECFG says, as the block opens (R174). -/
def State.restCluster (s : State) (c : Nat) : State :=
  forEach ((List.range 16).map (16 * c + ·)) (fun e s =>
    if (s.eng e).st = .off ∨ (s.eng e).st = .stopped then s.modEng e fun x => { x with st := s.restEng e, idleAt := s.eng2 }
    else s) s

/-- The engines of a cluster leave Off as their domain returns to On, Idle or Stopped whatever they were; a retired one stays in Fault
(R174, R303). A recovery self-test that the domain's stop cut off is over, and its step with it (DESIGN CHOICE, log 125). -/
def State.wakeCluster (s : State) (c : Nat) : State :=
  forEach ((List.range 16).map (16 * c + ·)) (fun e s =>
    if (s.func (fnEng e)).retired then s.modEng e fun x => { x with st := .fault, recov := 0, recovOn := false }
    else
      let s := s.modEng e fun x => { x with st := s.restEng e, idleAt := s.eng2, recov := 0, recovOn := false }
      s.stepOver (fnEng e)) s

/-- The pools that lose their last member's domain stop being up: their unclaimed offers are withdrawn (R115). -/
def State.checkPools (s : State) : State :=
  forEach (List.range 64) (fun p s =>
    if (s.dst (512 + p)).offer.isSome && !s.dstUp (512 + p) then s.poolLost (512 + p) else s) s

/-- What a change of RFX_ECFG brings at the end of its edge: an engine that runs nothing becomes Idle or Stopped, and a pool may stop
being up (R115, R173, R174). -/
def State.endMembership (s : State) : State :=
  if s.edge.ecfg.isEmpty then s
  else (forEach (mKeys s.edge.ecfg) (fun e s =>
    let x := s.eng e
    if (x.st == .idle || x.st == .stopped) && decide (x.st ≠ s.restEng e) then
      s.modEng e fun y => { y with st := s.restEng e, idleAt := s.eng2 } else s) s).checkPools

/-- The lifetime and tenant counts, as retention SRAM keeps them (R335). -/
def State.countWords (s : State) : SMap Word := mKeep (fun k => k / 0x80000 == 0x19 || k / 0x80000 == 0x1A) s.tbl

/-- A domain takes the state it was asked to take (R251, R268, R273). -/
def State.setDom (s : State) (d : Nat) (st : DomSt) : State :=
  let old := s.dom d
  let s := if d = 2 ∧ st ≠ .on ∧ old = .on then s.modLog fun l => { l with keep := s.countWords, keepOk := true } else s
  let s := if st = .off ∧ old ≠ .off then s.loseDomain d else s
  let s := if st = .off ∧ (d = 0 ∨ d = 2) then { s with ldr := { s.ldr with phase := .header, kept := decide (d = 0) && decide (s.dom 2 ≠ .off) } } else s
  let s := if d = 2 ∧ st = .ret then s.writeRetention true else s
  let s := if d = 3 ∧ st ≠ .on then { s with mir := { s.mir with link := false } } else s
  let s := if d = 0 ∧ old = .on ∧ st ≠ .on then
      ((s.setReg 0x2854 0).setReg 0x2858 0).modPwr fun p => { p with wakePins := [] } else s
  let s := s.modPwr fun p => { p with dom := mSet (fun _ => .on) p.dom d st }
  let s := if 8 ≤ d ∧ s.snt.testEng.any (fun e => decide (engDom e = d)) then { s with snt := { s.snt with testEng := none } } else s
  let s := if st = .off ∧ 8 ≤ d then
      forEach ((List.range 16).map (16 * (d - 8) + ·)) (fun e s => s.modEng e fun x => { x with st := .off }) s
    else s
  s.checkPools

/-- A domain returns to On: its registers are restored, its clock runs (R268, R276). D_CORE starts from the live filtered
levels, its ticks and decay periods begin anew, and the latched inputs raise when the block serves (R57, R58; log 91). After a reset
too they come from the image, which retention SRAM keeps (R276, R351). R57 raises the latched inputs at a return after a wake; at a return
by PWR_CMD or a power-manager request, of which it does not speak, they raise likewise (DESIGN CHOICE, log 126). -/
def State.returnDom (s : State) (d : Nat) : State :=
  let old := s.dom d
  let s := s.modPwr fun p => { p with dom := mSet (fun _ => .on) p.dom d .on, clkOff := p.clkOff.filter (· ≠ d) }
  let s := if old = .off then s.restorePage (inDom d) else s
  let s := if d = 1 ∧ old = .ret then s.holdBases else if d = 1 ∧ old = .off then s.restartBases else s
  let s := if d = 0 ∧ old ≠ .on then { s with tickAt := s.rank, decayAt := s.rank }.liveLevels else s
  let s := if d = 3 ∧ old ≠ .on then s.mirAgain else s
  let s := if d = 0 ∧ old ≠ .on then forEach (List.range 2048) (fun n s => s.levelTry n) s.wakeRaise else s
  if 8 ≤ d then s.wakeCluster (d - 8) else s

/-! ## Transitions (R271-R276, R278) -/

/-- The status codes of PWR_MSTAT.cstat. -/
def cOk : Nat := 0
def cRefused : Nat := 1
def cBusy : Nat := 2
def cInvalid : Nat := 3

/-- PMD_REQ of the domain that returns next asks for On (R276). -/
def State.reqHead (s : State) : State :=
  match s.pwr.trans with
  | some t => match t.raise with
    | d :: _ => s.modPwr fun p => { p with req := mSet (fun _ => .on) p.req d .on }
    | [] => s
  | none => s

/-- A transition ends: its status shows, the power manager is answered, the house source of refusals is raised
(R274, R278). The return of the domains after BLK_RST_N is no command and leaves the status kept (R280). -/
def State.endTrans (s : State) (code : Nat) : State :=
  let pm := match s.pwr.trans with
    | some t => t.pm
    | none => false
  let boot := match s.pwr.trans with
    | some t => t.boot
    | none => false
  let s := s.modPwr fun p =>
    { p with trans := none, cstat := if boot then p.cstat else code, pmAck := p.pmAck || pm, pmOk := if pm then decide (code = cOk) else p.pmOk }
  let s := onlyIf (decide (code = cRefused) && bit (s.reg 0x2838) 0) (·.house 0x5A11) s
  if s.pwr.warmWait then { s with snt := { s.snt with warmDue := true }, pwr := { s.pwr with warmWait := false } } else s

/-- A refusal: it is counted, shown and recorded, and the strike is undone (R274). -/
def State.refuse (s : State) (d reason : Nat) : State :=
  match s.pwr.trans with
  | some t =>
    let s := (s.setReg 0x2820 (wd (at_ d 0 6 + at_ reason 6 4 + 0x400))).bump 0x2864
    let s := s.record 0x0D d reason [s.reg 0x2808, s.reg 0x280C, s.reg 0x2810]
    if t.stopped.isEmpty then s.endTrans cRefused
    else s.modPwr fun p => { p with trans := some { t with ph := .undoing, next := s.slowEdge + 1 } }
  | none => s

/-- The domains whose state is not yet their target. -/
def State.toChange (s : State) (t : Trans) : List Nat := strikeOrder.filter fun d => decide (s.dom d ≠ tgtOf t.tgt d)

/-- A transition ends with every domain, and the retention SRAM switch, at its target (R273). -/
def State.finish (s : State) (t : Trans) : State :=
  let struck := !t.stopped.isEmpty
  let s := s.modPwr fun p => { p with clkOff := [] }
  (onlyIf struck (·.bump 0x2860) s).endTrans cOk

/-- The retention SRAM switch is open: what retention SRAM held is lost (R268). -/
def State.openRet (s : State) : State :=
  let s := s.modPwr fun p => { p with ropen := true }
  { s with ldr := { s.ldr with ret := {}, image := [] }, log := { s.log with keep := [], keepOk := false, area := [] } }

/-- Every other acknowledgement has been seen: a switch to be opened is asked to open, and the transition ends once it has; else it ends
(R273, R277). -/
def State.complete (s : State) (t : Trans) : State :=
  if t.ropen ∧ s.pwr.ropen = false then
    s.modPwr fun p =>
      { p with req := mSet (fun _ => .on) p.req 5 .off, trans := some { t with ph := .acking, await := [5], next := s.slowEdge } }
  else s.finish t

/-- After the raises: the checkpoint of a D_MEM Off strike, else the asking begins (R271). -/
def State.afterRaise (s : State) (t : Trans) : State :=
  let region7 : Bool := match s.ldr.hdr with
    | some h => decide (0 < (h.regions.getD 7 (0, 0)).2)
    | none => false
  if t.ph = .raising ∧ tgtOf t.tgt 2 = .off ∧ s.dom 2 ≠ .off ∧ region7 then
    s.modPwr fun p => { p with trans := some { t with ph := .ckptWait, raise := [], asked := 0 } }
  else
    let set := strikeOrder.filter fun d => s.domOn d && decide (tgtOf t.tgt d ≠ .on)
    let t := { t with ph := .asking, raise := [], ask := set, asked := s.slowEdge, stopped := [] }
    if set.isEmpty then
      let l := s.toChange t
      if l.isEmpty then s.complete t
      else s.modPwr fun p => { p with trans := some { t with ph := .acking, await := l, next := s.slowEdge + 1 } }
    else s.modPwr fun p => { p with trans := some t }

/-- A transition to a set of targets starts; an open retention SRAM switch that is to be closed is closed first (R269, R271, R277). -/
def State.startTrans (s : State) (tgt : SMap DomSt) (ropen wake pm : Bool) : State :=
  if validSet tgt ropen then
    let up := (strikeOrder.filter fun d => decide ((s.dom d).level < (tgtOf tgt d).level)).reverse
    let cold := (up.contains 0 && decide (s.dom 0 = .off)) || (up.contains 2 && decide (s.dom 2 = .off))
    let up := (if s.pwr.ropen && !ropen then [5] else []) ++ up
    let t := { ph := .raising, tgt := tgt, ropen := ropen, raise := up, acked := [], ask := [], asked := 0, stopped := [],
               await := [], at_ := s.slowEdge, next := s.slowEdge, wake := wake, pm := pm, cold := cold : Trans }
    let s := s.modPwr fun p => { p with trans := some t }
    if up.isEmpty then s.afterRaise t else s.reqHead
  else
    s.modPwr fun p => { p with cstat := cInvalid, pmAck := p.pmAck || pm, pmOk := if pm then false else p.pmOk }

/-- The power manager's request is served when no transition runs (R278). -/
def State.servePm (s : State) : State :=
  match s.pwr.pmReq, s.pwr.trans with
  | some m, none =>
    if s.pwr.pmAck then s
    else
      let s := s.modPwr fun p => { p with pmAt := some s.slowEdge }
      match modeSet m with
      | some (t, r) => s.startTrans t r false true
      | none => s.modPwr fun p => { p with pmAck := true, pmOk := false }
  | _, _ => s

/-- The mode a wake enters: wmode, or Run for a code that does not raise every domain (R279). -/
def State.wakeMode (s : State) : SMap DomSt × Bool :=
  match modeSet (fld (s.reg 0x2830) 5 3) with
  | some (t, r) =>
    if strikeOrder.all fun d => decide ((s.dom d).level < (tgtOf t d).level) then (t, r) else ([], false)
  | none => ([], false)

/-- Two wake requests of one edge: one request, of the lowest source and the lowest input (R56, R279). -/
def WakeReq.with (r q : WakeReq) : WakeReq :=
  { r with src := min r.src q.src,
           pin := match r.pin, q.pin with
             | some a, some b => some (min a b)
             | a, b => a.or b }

/-- PWR_WSTAT and PWR_WAKE_LAST show a wake (R56, R279). -/
def State.showWake (s : State) (r : WakeReq) : State :=
  let s := s.setReg 0x2834 (wd (r.src + 4))
  match r.pin with
  | some n => s.setReg 0x2850 (wd (n + 0x100))
  | none => s

/-- A wake: counted, shown, and a transition to the mode it enters starts (R279). -/
def State.makeWake (s : State) (r : WakeReq) : State :=
  let s := (s.showWake r).bump 0x2868
  let s := s.modPwr fun p => { p with lastWake := some { r with at_ := s.slowEdge } }
  let (t, o) := s.wakeMode
  s.startTrans t o true false

/-- A request that comes while it cannot act yet waits; with one of the same edge it is one (R279). -/
def State.laterWake (s : State) (r : WakeReq) : State :=
  s.modPwr fun p => { p with lateWake := match p.lateWake with
    | some q => if q.at_ = r.at_ then some (q.with r) else some q
    | none => some r }

/-- A wake request (R279). Requests of one edge are one wake, of the lowest source. One that comes while domains are asked is a
refusal; one that comes after every agreement, while domains return for a command or while a strike is undone follows the
transition (the last two DESIGN CHOICE, log 100); one that comes while a wake returns domains has its wake. -/
def State.wakeReq (s : State) (r : WakeReq) : State :=
  let same : Option WakeReq := match s.pwr.lastWake with
    | some q => if q.at_ = s.slowEdge then some (q.with r) else none
    | none => none
  match same, s.pwr.trans with
  | some q, some t =>
    if t.wake then (s.modPwr fun p => { p with lastWake := some q }).showWake q else s
  | some _, none => s
  | none, none => if s.mode = 0 then s else s.makeWake r
  | none, some t =>
    match t.ph with
    | .asking => (s.modPwr fun p => { p with lastWake := some r }).refuse 5 6
    | .raising => if t.wake then s else s.laterWake r
    | _ => s.laterWake r

/-- A wake request of source `src` at the present edge (R279). -/
def State.wake (s : State) (src : Nat) : State := s.wakeReq { at_ := s.slowEdge, src := src, pin := none }

/-- The lowest input latched for a wake (R56). -/
def State.latched (s : State) : Option Nat :=
  (List.range 64).find? fun n => bit (s.reg (if 32 ≤ n then 0x2858 else 0x2854)) (n % 32)

/-- PWR_WCFG takes a value: with its mask bit newly set, an input latched while D_CORE is not On requests its wake (R56). -/
def State.setWcfg (s : State) (v : Word) : State :=
  let old := s.reg 0x2830
  let s := s.setReg 0x2830 v
  match s.latched with
  | some n => if bit v 3 ∧ bit old 3 = false ∧ s.domOn 0 = false then s.wakeReq { at_ := s.slowEdge, src := 3, pin := some n } else s
  | none => s

/-- D_NVM is returned for a flush of power failure, when no transition runs (R276, R326). -/
def State.nvmBack (s : State) : State :=
  if s.pwr.trans.isSome then s
  else
    let t := { ph := .raising, tgt := mSet (fun _ => .on) s.pwr.dom 4 .on, ropen := false, raise := [4], acked := [], ask := [], asked := 0,
               stopped := [], await := [], at_ := s.slowEdge, next := s.slowEdge, wake := false, pm := false, cold := false,
               boot := true : Trans }
    (s.modPwr fun p => { p with trans := some t }).reqHead

/-- A wake that waited for the transition to end follows it (R279); then a waiting power-manager request. -/
def State.afterTrans (s : State) : State :=
  let s := if 0 < s.log.pfWant ∧ s.domOn 4 = false then s.nvmBack else s
  match s.pwr.trans, s.pwr.lateWake with
  | none, some r =>
    let s := s.modPwr fun p => { p with lateWake := none }
    if s.mode = 0 then s.servePm else s.makeWake r
  | none, none => s.servePm
  | _, _ => s

/-- The warm reset is asserted: a strike in progress is undone first, as a refusal with reason RESET (R280). It acts when the
command that asserts it has acted (R306: one reset for several causes of one edge). While acknowledgements are awaited, the domains that have
not changed are re-pitched; those that have return after the reset (DEDUCED, log 127). -/
def State.assertWarm (s : State) : State :=
  match s.pwr.trans with
  | some t => match t.ph with
    | .asking => (s.modPwr fun p => { p with warmWait := true }).refuse 5 7
    | .ckptWait | .undoing => s.modPwr fun p => { p with warmWait := true }
    | .acking =>
      let back := fun (p : Pwr) => t.await.foldl (fun m d => mSet (fun _ => .on) m d .on) p.req
      let s := s.modPwr fun p =>
        { p with warmWait := true, req := back p, trans := some { t with stopped := t.stopped.filter s.domOn, await := [] } }
      s.refuse 5 7
    | _ => { s with snt := { s.snt with warmDue := true } }
  | none => { s with snt := { s.snt with warmDue := true } }

end Sys2Proof.Machine
end

