-- ==== Sys2Proof/Machine/Faults.lean ====
section
/-! DEFINITION. Detected faults and the recovery ladder: what is counted, shown and recorded, which step is carried out,
and when it ends (R296, R300-R306), the safe state (R307, R308, R365) and the flush of a tenant (R243). -/

namespace Sys2Proof.Machine

/-- SNT_FSTAT of a function. -/
def State.fstat (s : State) (f : Nat) : Word :=
  let x := s.func f
  wd (x.step + at_ (b2n x.tmr.isSome) 3 1 + at_ (b2n x.busy) 4 1 + at_ (b2n x.retired) 5 1)

/-- SNT_GCFG. -/
def State.sntCfg (s : State) : Word := s.reg 0x3000

/-! ## Owners (R304) -/

/-- Whether tenant `v` maps pool `p` with own = 1. -/
def State.poolOwned (s : State) (v p : Nat) : Bool :=
  (List.range 8).any fun k =>
    let b := fld (s.ten v (7 + k / 4)) (8 * (k % 4)) 8
    decide (192 ≤ b) && decide (b % 64 = p)

/-- Whether tenant `v` maps target `t` with own = 1. -/
def State.targetOwned (s : State) (v t : Nat) : Bool :=
  (List.range 32).any fun i => (List.range 16).any fun w =>
    let x := s.tw 0x16 (32 * v + i) w
    bit x 15 && bit x 14 && decide (fld x 0 9 = t)

/-- Whether tenant `v`'s context range holds context `k`. -/
def State.ctxOwned (s : State) (v k : Nat) : Bool :=
  decide (fld (s.ten v 3) 0 12 ≤ k) && decide (k < fld (s.ten v 3) 0 12 + fld (s.ten v 3) 16 13)

/-- The tenants a function belongs to, ascending (R304). -/
def State.owners (s : State) (f : Nat) : List Nat :=
  (List.range 256).filter fun v =>
    if f < 512 then (s.poolNow f).any (s.poolOwned v)
    else if f < 544 then false
    else if f < 4640 then s.ctxOwned v (f - 544)
    else if f < 5152 then s.targetOwned v (f - 4640)
    else decide (f = 5152 + v)

/-! ## Flush of a tenant (R243) -/

/-- TEN_SRC.vcnt, limited to the map (R232). -/
def State.vcnt (s : State) (v : Nat) : Nat := min (fld (s.ten v 2) 16 16) 32768

/-- A FLUSH of a tenant begins: counted; its visits start at this edge (R243). -/
def State.flushTenant (s : State) (v : Nat) : State :=
  { s.bumpTw 0x14 v 14 with flush := s.flush.filter (fun x => decide (x.1 ≠ v)) ++ [(v, 0)] }

/-- The visit to one slot of a tenant: every instance of the source it maps is discarded (R232, R243). -/
def State.visitSlot (s : State) (v vsn : Nat) : State := match s.mapSlot v vsn with
  | some p => s.discard p
  | none => s

/-- The visits of an edge, at its end: 8 slots of each tenant that is flushed, ascending (R243; log 17). -/
def State.flushVisits (s : State) : State :=
  forEach s.flush (fun x s => forEach ((List.range 8).map (x.2 + ·)) (fun n s => s.visitSlot x.1 n) s)
    { s with flush := s.flush.map fun x => (x.1, if x.2 < s.vcnt x.1 then x.2 + 8 else x.2) }

/-- Re-initialisation of a tenant: its en is cleared, then it is flushed (R243). -/
def State.reinitTenant (s : State) (v : Nat) : State :=
  (s.clearEn 0x14 v).flushTenant v

/-! ## The safe state (R307, R308) -/

/-- Whether the outbound port can be granted to the Sentinel: D_CORE On (R308). -/
def State.portUp (s : State) : Bool := !s.domStill 0

/-- A record for the last-gasp registers waits for the next SLOW_CLK edge (R329). -/
def State.lastGasp (s : State) (r : Rec) : State := s.modLog fun l => { l with gaspQ := l.gaspQ ++ [(s.slowEdge, r)] }

/-- A last-gasp record of a kind the lantern domain forms: sub, object and the words it does not hold read 0 (R329). -/
def State.gaspRec (s : State) (kind reason : Nat) (d : List Word) : Rec :=
  { kind := kind, flags := 2, time := s.recTime, reason := reason, d := d }

/-- A fault flush is asked for, while REC_CFG.ffl = 1 (R325). -/
def State.wantFlush (s : State) : State :=
  onlyIf (bit (s.reg 0x3400) 2) (·.modLog fun l => { l with flushWant := true }) s

/-- Entry into the safe state for a reason of the SAFE record (R307, R308, R313, R325, R329). A second entry while it
stands changes nothing but the record of its cause (log 18). -/
def State.enterSafe (s : State) (reason : Nat) : State :=
  let was := s.snt.safe || decide (s.snt.left = some s.rank)
  let s := { s with snt := { s.snt with safe := true, entered := some s.rank } }
  if was then s
  else
    let d := [s.reg 0x3024]
    let s := (s.record 0x03 0 reason d).lastGasp (s.gaspRec 0x03 reason d)
    let s := (onlyIf (bit s.sntCfg 3) (·.house 0x5A03) s).wantFlush
    let locks := (List.range 64).filter fun l => decide (0 < min (fld (s.tw 0x12 l 1) 0 3) 5)
    if s.portUp then s.pushSafe (locks.flatMap fun l => s.safeSet l none)
    else s.bumpN 0x30B8 locks.length

/-- What SAFE_OUT drives (R307). -/
def State.safeOut (s : State) : Word := if s.snt.safe then s.reg 0x3024 else s.reg 0x3020

/-- A bit of SNT_SMASK enters the safe state for its reason (R307). -/
def State.safeIf (s : State) (b reason : Nat) : State := onlyIf (bit (s.reg 0x3028) b) (·.enterSafe reason) s

/-- Whether a fault is a fault on the Class 0 or Class 1 path (R365); `rt`: an uncorrectable error found by a read of the
real-time lane, or a disagreement in the direct path or its configuration flops. -/
def pathFault (mech : Nat) (rt : Bool) : Bool :=
  [0x04, 0x05, 0x06, 0x07, 0x0B, 0x12].contains mech || ((decide (mech = 0x01) || decide (mech = 0x03)) && rt)

/-! ## Steps (R302-R306) -/

/-- A step ends (R302). At step 3 of a function that tenants own, its repeated step 2 has ended: its tenants are re-initialised, in ascending
number, and the step is over once their FLUSHes are (R304). -/
def State.endStep (s : State) (f : Nat) : State :=
  let x := s.func f
  let l := s.owners f
  if x.step = 3 ∧ f ≠ fnDevice ∧ x.cmd = false ∧ x.owe = none ∧ !l.isEmpty then
    forEach l (fun v s => s.reinitTenant v) (s.modFunc f fun y => { y with owe := some l, endAt := none })
  else s.endTimer f

/-- The steps 3 whose tenants' FLUSHes have ended are over (R304). -/
def State.payOwed (s : State) : State :=
  forEach (s.snt.funcs.filterMap fun x => x.2.owe.map fun l => (x.1, l)) (fun x s =>
    if x.2.any fun v => s.flush.any fun y => decide (y.1 = v) then s else s.endTimer x.1) s

/-- The recovery self-test of an engine begins: a re-initialisation squashes its held places, ends the locked sequences it
owns and clears its registers (the table "Steps by function"; R184, R224). A rotating self-test under way is over (R297). -/
def State.beginRecov (s : State) (e : Nat) : State :=
  let two := decide (2 ≤ (s.eng e).recov)
  let s := if two then
      forEach ((s.occs.filter fun x => decide (x.2.engine = some e) && !x.2.places.isEmpty).map Prod.fst)
        (fun o s => s.squash o 7) s
    else s
  let s := if two then forEach (s.seqsOf e) (fun q s => s.faultSeq q) s else s
  let s := if s.snt.testEng = some e then { s with snt := { s.snt with testEng := none } } else s
  s.modEng e fun x =>
    { x with st := .fault, recovOn := true, testAt := s.eng2, idleAt := s.eng2,
             regs := if two then [] else x.regs, acc := if two then 0 else x.acc, sat := if two then false else x.sat }

/-- A recovery step of an engine: it begins at once when the engine holds no reflex, and otherwise at the edge after its completion is
accepted; on an engine that is Off it is over at once (R302, R306). -/
def State.engStep (s : State) (e step : Nat) : State :=
  let x := s.eng e
  if s.domOn (engDom e) = false then (if (s.func (fnEng e)).busy then s.endStep (fnEng e) else s)
  else
    let s := s.modEng e fun y => { y with recov := max y.recov step }
    match x.st with
    | .load | .run | .done => s
    | _ => s.beginRecov e

/-- The recovery steps whose engines' completions were accepted at an earlier edge begin (R306). -/
def State.dueRecovs (s : State) : State :=
  forEach ((s.engs.filter fun x => decide (0 < x.2.recov) && !x.2.recovOn && !x.2.st.busy && decide (x.2.doneAt < s.eng2)).map Prod.fst)
    (fun e s => s.beginRecov e) s

/-- The writes a queue item stands for, when it is discarded. -/
def QItem.writes : QItem → Nat
  | .plain _ _ _ => 1
  | .freed _ (.write _ _) => 1
  | _ => 0

/-- A cluster's queue is emptied; each discarded write counts, a locked sequence in it ends ABANDONED, and its request is
unmasked (the table "Steps by function"). -/
def State.emptyCluster (s : State) (c : Nat) : State :=
  let q := (s.cluster c).queue
  let s := s.modCluster c fun x => { x with queue := [] }
  let s := s.bumpN 0x1C24 ((q.map QItem.writes).sum)
  let s := forEach q (fun i s => match i with
    | .marker id => match s.lseq id with
      | some x => s.faultSeq x
      | none => s
    | .freed _ (.seq id) => match s.lseq id with
      | some x => s.faultSeq x
      | none => s
    | _ => s) s
  let s := s.refill c
  s.modArb 0 fun a => { a with masked := a.masked.filter (· ≠ c) }

/-- A context's words 0-6 take their reset values (the table "Steps by function"). -/
def State.resetCtx (s : State) (k : Nat) : State :=
  forEach (List.range 7) (fun w s => s.setTw 0x0A k w (tblReset (tKey 0x0A k w))) s

/-- A context's re-initialisation ends: it is armed when its en is 1 (the table "Steps by function"). -/
def State.endCtxStep (s : State) (k : Nat) : State :=
  (if bit (s.ccfg k) 0 then s.arm k (s.ccmp k) else s).endStep (fnCtx k)

/-- Queue an NVM job for its requester of the NVM arbiter (R213, R246). -/
def State.addJob (s : State) (j : NvmJob) : State :=
  { s with ldr := { s.ldr with jobs := s.ldr.jobs ++ [{ j with at_ := s.eng2 / 64 }] } }

/-- Address and size of an image region, when it is present. -/
def State.region (s : State) (i : Nat) : Option (Nat × Nat) := match s.ldr.hdr with
  | some h => let r := h.regions.getD i (0, 0)
    if r.2 = 0 then none else some r
  | none => none

/-- The steps that read `n` bytes at an address: at most 64 KiB a transaction (R246). -/
def readSteps : Nat → Nat → Nat → List NvmStep
  | 0, _, _ => []
  | k + 1, a, n => if n = 0 then [] else .read a (min n 0x10000) :: readSteps k (a + 0x10000) (n - 0x10000)

/-- The steps that read a range. -/
def readAt (a n : Nat) : List NvmStep := readSteps (n / 0x10000 + 1) a n

/-- A context's re-initialisation: disarmed, then its words are read back from the open profile, or reset when there is
none (the table "Steps by function"). -/
def State.ctxStep2 (s : State) (k : Nat) : State :=
  let s := s.disarm k
  let l := s.ldr
  let c := l.ret.cand
  let base := if l.path = 3 ∨ l.phase ≠ .opened then none else if c < 4 then s.region c
    else (s.region 4).map fun r => (r.1 + (c - 4) * (r.2 / 2), r.2 / 2)
  match base with
  | some (a, n) => s.addJob { req := 0, use := .ctxStep k, steps := readAt a (min n 0x200000) }
  | none => (s.resetCtx k).endCtxStep k

/-- The step of a function is carried out (R302, the table "Steps by function"); device steps are `deviceStep`. A cluster's step ends
528 ENG_CLK cycles on. -/
def State.carryOut (s : State) (f step : Nat) : State :=
  if f < 512 then s.engStep f step
  else if f < 544 then
    let c := f - 512
    let s := s.emptyCluster c
    let s := if step = 1 then s
      else forEach ((List.range 16).map (16 * c + ·)) (fun e s => s.engStep e 2) s
    s.modFunc f fun y => { y with endAt := some (s.eng2 + 528) }
  else if f < 4640 then
    let k := f - 544
    if step = 1 then (s.arm k (if s.isTime (s.cbase k) then s.ctgt k else (lo32 (s.ctgt k)).setWidth 64)).endStep f
    else s.ctxStep2 k
  else if f < 5152 then
    let t := f - 4640
    if step = 1 then s.endStep f
    else (s.targetLost t).modDst t fun x => { x with downFrom := some s.rank }
  else if f < 5408 then s.reinitTenant (f - 5152)
  else s

/-- The steps of clusters whose time is over end (the table "Steps by function"). -/
def State.dueSteps (s : State) : State :=
  forEach (s.snt.funcs.filter fun x => match x.2.endAt with
    | some t => decide (t ≤ s.eng2)
    | none => false) (fun x s => s.endStep x.1) s

/-- A step is taken: counted, recorded, reported (R302, R313). -/
def State.noteStep (s : State) (f step old : Nat) : State :=
  let s := (s.bump (0x30A0 + 4 * (step - 1))).bumpTw 0x18 f 3
  let s := s.record 0x02 f step [wd old] (s.owners f).head?
  let s := onlyIf (bit s.sntCfg 1) (·.house 0x5A01) s
  s.modFunc f fun y => { y with step := step, busy := true, tmr := none, cmd := false, stepAt := some s.rank }

/-- The step a fault moves a function to (R302). -/
def State.nextStep (s : State) (f : Nat) (start2 : Bool) : Nat :=
  let x := s.func f
  let within := x.tmr.isSome || (decide (f = fnDevice) && x.busy && decide (x.step = 3))
  let n := if within then x.step + 1 else 1
  let n := if start2 then max 2 n else n
  min (min n (fld s.sntCfg 5 2 + 1)) (if f = fnDevice then 4 else 3)

/-- Device step 4: PWR_CYCLE_REQ and the safe state; no timer (R305). -/
def State.device4 (s : State) : State :=
  let s := { s with snt := { s.snt with pcreq := true } }
  let s := s.lastGasp (s.gaspRec 0x02 4 [])
  (s.modFunc fnDevice fun y => { y with step := 4, busy := false, tmr := none }).enterSafe 1

/-- A step of the device (R302, R305, R325, R329). -/
def State.deviceStep (s : State) (step : Nat) (clock : Bool) : State :=
  let old := (s.func fnDevice).step
  let s := (s.noteStep fnDevice step old).wantFlush
  if step ≤ 2 then onlyIf (clock && decide (step = 1)) (·.endStep fnDevice) s
  else if step = 3 then
    let s := (s.safeIf 0 3).lastGasp (s.gaspRec 0x02 3 [])
    s.assertWarm
  else s.device4

/-- A fault enters the device's ladder; one between the device reset and Open counts as one within its timer (R302, R305). -/
def State.deviceFault (s : State) (start2 clock : Bool) : State :=
  let x := s.func fnDevice
  let s := s.bumpTw 0x18 fnDevice 2
  if (x.busy ∧ (x.step ≠ 3 ∨ x.cmd)) ∨ x.step = 4 ∨ s.snt.warmDue then s else s.deviceStep (s.nextStep fnDevice start2) clock

/-- A fault enters a function's ladder (R302, R304). At step 3 of a function that tenants own, step 2 is carried out again, and `endStep` goes
on with the tenants. -/
def State.enterLadder (s : State) (f : Nat) (start2 clock : Bool) : State :=
  if f = fnDevice then s.deviceFault start2 clock
  else
    let x := s.func f
    let s := s.bumpTw 0x18 f 2
    if x.busy ∨ x.retired then s
    else
      let n := s.nextStep f start2
      let s := s.noteStep f n x.step
      if n ≤ 2 then s.carryOut f n
      else if bit s.sntCfg 4 ∧ (s.owners f).isEmpty = false then
        s.carryOut f 2
      else (s.endTimer f).deviceFault false false

/-- A detected fault is counted, shown, recorded and raised, and enters a ladder by `ladder` (R296). -/
def State.reportWith (s : State) (mech f : Nat) (rt : Bool) (ladder : State → State) : State :=
  let s := s.bump (0x3040 + 4 * mech)
  let s := ladder (s.setReg 0x300C (wd (at_ mech 0 5 + at_ f 5 13 + 0x40000)))
  let s := s.record 0x01 f mech [s.fstat f] (s.owners f).head?
  let s := onlyIf (bit s.sntCfg 0) (·.house 0x5A00) s
  let s := onlyIf (decide (mech = 0x09)) (·.safeIf 1 4) s
  onlyIf (pathFault mech rt) (·.safeIf 2 5) s

/-- A fault of a function, found by a mechanism; those of the clock monitors start at step 2 (R296, R302). -/
def State.fault (s : State) (mech f : Nat) (start2 : Bool := false) (rt : Bool := false) : State :=
  let clock := decide (mech = 0x09)
  s.reportWith mech f rt fun s => s.enterLadder f (start2 || clock) clock

/-- The mirror heartbeat's bite: reported under 0x0F, it enters no ladder, since the mirror acts (R300). The device's index stands for no
function (DESIGN CHOICE, log 103). -/
def State.mirBite (s : State) : State := onlyIf (bit s.sntCfg 2) (·.house 0x5A02) (s.reportWith 0x0F fnDevice false id)

/-- A watchdog bite: a fault that also raises 0x5A02 (R299, R300). -/
def State.bite (s : State) (mech f : Nat) : State := onlyIf (bit s.sntCfg 2) (·.house 0x5A02) (s.fault mech f)

end Sys2Proof.Machine
end

