-- ==== Sys2Proof/Machine/Status.lean ====
section
/-! DEFINITION. Status words: the H fields hardware drives from the live condition, for every register and table entry
(R23), with the turn hints of R218. -/

namespace Sys2Proof.Machine

/-! ## Words of the table entries -/

/-- The five instance states as coded (the table "DSP_SSTAT"). -/
def SrcState.code : SrcState → Nat
  | .idle => 0 | .pending => 1 | .staged => 2 | .active => 3 | .completing => 4

/-- Whether the block's dynamic state comes from its partner's journal (R284). -/
def State.follows (s : State) : Bool := s.mir.role == .standby || s.mir.role == .resync || s.mir.role == .takeover

/-- A source's state as coded: its own, or the one the journal gave (R284). -/
def State.stCode (s : State) (p : Nat) : Nat :=
  if s.follows then ((mFind s.mir.psrc p).map Prod.fst).getD 0 else (s.src p).st.code

/-- A source's sequence number: its own, or the one the journal gave (R284). -/
def State.seqWord (s : State) (p : Nat) : Word :=
  if s.follows then wd (((mFind s.mir.psrc p).map fun x => x.2.2.2.1).getD (s.src p).seq.toNat) else (s.src p).seq.setWidth 32

/-- The instances a source holds: its own, or as many as the journal told (R284). -/
def State.heldCount (s : State) (p : Nat) : Nat :=
  if s.follows then ((mFind s.mir.psrc p).map fun x => x.2.1).getD 0 else (s.src p).q.length

/-- DSP_SSTAT (R100, R102, R113, R123, R363). -/
def State.dspSstat (s : State) (p : Nat) : Word :=
  let x := s.src p
  wd (s.stCode p + at_ (b2n (s.heldBack p)) 3 1 + at_ (b2n (x.inner && (x.st == .active || x.kept))) 4 1 + at_ (b2n x.replay) 5 1
    + at_ (x.last.getD 0) 6 9 + at_ (x.outer.getD 0) 15 15 + at_ (b2n x.outer.isSome) 30 1 + at_ (b2n x.last.isSome) 31 1)

/-- RNK_SSTAT (R79). -/
def State.rnkSstat (s : State) (p : Nat) : Word :=
  let x := s.src p
  let here := x.place == .heap || x.place == .shelf
  wd (s.ecls p + at_ (b2n (s.c0dem p)) 2 1 + at_ (b2n (x.place == .heap)) 3 1 + at_ (b2n (x.place == .shelf)) 4 1
    + (if here then at_ x.dst 5 10 + at_ x.key.share 16 15 else 0))

/-- INT_STAT. -/
def State.intStat (s : State) (n : Nat) : Word :=
  let x := s.inp n
  wd (b2n x.level + at_ (b2n x.stuck) 1 1 + at_ (b2n (s.storm n)) 2 1 + at_ (b2n (s.isC0 n)) 3 1
    + at_ (s.heldCount n) 4 4 + at_ x.tokens 8 8)

/-- The effective queue depth of a message source (R70). -/
def State.qdepth (s : State) (m : Nat) : Nat := orOne (fld (s.tw 0x03 m 0) 1 4)

/-- MSG_STAT: the instances held and the pool entries they hold; the journal tells of the instances alone, so a standby shows their number
for both (R284; DEDUCED, log 143). -/
def State.msgStat (s : State) (m : Nat) : Word :=
  let n := s.heldCount (psnMsg + m)
  let used := if s.follows then n else ((s.src (psnMsg + m)).q.filter fun i => i.entry.isSome).length
  wd (at_ n 0 4 + at_ used 4 4 + at_ (b2n (decide (n = s.qdepth m))) 8 1)

/-- MSG_HEAD: the payload of the oldest instance, its own or the one the journal told (R284). -/
def State.msgHead (s : State) (m : Nat) : Word :=
  if s.follows then ((mFind s.mir.psrc (psnMsg + m)).map fun x => x.2.2.2.2).getD 0
  else match (s.src (psnMsg + m)).q with
  | i :: _ => i.payload
  | [] => 0

/-- RNK_DSTAT. -/
def State.rnkDstat (s : State) (d : Nat) : Word :=
  let x := s.dst d
  wd (at_ x.heap.length 0 7 + at_ x.shelf.length 8 15 + at_ (min (s.c1count d) 15) 24 4 + at_ (b2n (s.c1over d)) 28 1
    + at_ (b2n (!x.heap.isEmpty)) 29 1)

/-- RNK_DHEAD. -/
def State.rnkDhead (s : State) (d : Nat) : W64 := match s.head d s.rank with
  | some p => (s.src p).key.word
  | none => 0

/-- DSP_TSTAT. -/
def State.dspTstat (s : State) (d : Nat) : Word :=
  let x := s.dst d
  let conf := match x.offer with
    | some o => o.conf.isSome
    | none => false
  wd (b2n (s.dstUp d) + at_ (b2n x.offer.isSome) 1 1 + at_ (b2n conf) 2 1 + at_ (b2n x.c0.isSome) 3 1
    + at_ (s.depth d) 4 4 + at_ (s.c0depth d) 8 7 + at_ (x.nest.headD 0) 16 15 + at_ (b2n (!x.nest.isEmpty)) 31 1)

/-- Held places in use by an engine (R160). -/
def State.heldBy (s : State) (e : Nat) : Nat :=
  s.occs.foldl (fun n x => if x.2.engine = some e then n + x.2.places.length else n) 0

/-- Held places of a context's occurrences. -/
def State.heldOf (s : State) (k : Nat) : Nat :=
  s.occs.foldl (fun n x => if x.2.ctx = k then n + x.2.places.length else n) 0

/-- CTX_STAT: the live condition, or what the journal gave (R284). -/
def State.cstat (s : State) (k : Nat) : Word :=
  let c := s.ctx k
  if s.follows then wd (((mFind s.mir.pctx k).map Prod.fst).getD 0)
  else wd (b2n (!c.entries.isEmpty) + at_ (b2n (decide (c.entries.length = 2))) 1 1 + at_ (b2n c.waiting) 2 1
    + at_ (b2n (!(s.launchedOf k).isEmpty)) 3 1 + at_ (s.heldOf k) 4 5 + at_ (b2n c.late) 9 1 + at_ c.sqr 10 4)

/-- The engine states as coded (R174). -/
def EngSt.code : EngSt → Nat
  | .off => 0 | .idle => 1 | .load => 2 | .run => 3 | .done => 4 | .fault => 5 | .test => 6 | .stopped => 7

/-- RFX_ESTAT: an engine is Off while its domain is not On (R174). -/
def State.estat (s : State) (e : Nat) : Word :=
  let x := s.eng e
  let v := x.st.busy && x.psn.isSome
  wd ((if s.domOn (engDom e) then x.st.code else 0) + at_ (s.heldBy e) 4 4 + (if v then at_ (x.psn.getD 0) 8 15 else 0) + at_ (b2n v) 23 1 + at_ x.lastFlt 24 4)

/-- Whether an engine is idle for a take (R174, R175). A take is not made while a recovery step waits (R306), nor while its
cluster's domain has stopped or is asked to stop (R272). -/
def State.idleEng (s : State) (e : Nat) : Bool :=
  let x := s.eng e
  (x.st == .idle || x.st == .test) && decide (x.recov = 0) && !s.domStill (engDom e) &&
  (match s.pwr.trans with
    | some t => !(t.ph == .asking && decide (t.ask.head? = some (engDom e)))
    | none => true)

/-- The members of a pool. -/
def State.members (s : State) (p : Nat) : List Nat := (List.range 512).filter fun e => s.member e p

/-- RFX_PSTAT. -/
def State.pstat (s : State) (p : Nat) : Word :=
  wd (at_ (s.members p).length 0 10 + at_ ((s.members p).filter s.idleEng).length 16 10)

/-- The context whose occurrence owns a sequence: held under R169, or released and not yet transferred (R161, R169). -/
def State.seqCtx (s : State) (q : LSeq) : Option Nat := match q.ph with
  | .occHeld o => (mFind s.occs o).map Occ.ctx
  | _ => (s.cluster (q.engine / 16)).queue.findSome? fun i => match i with
    | .freed k (.seq id) => if id = q.id then some k else none
    | _ => none

/-- OUT_LK_STAT. -/
def State.lkStat (s : State) (l : Nat) : Word :=
  let x := s.lock l
  if s.follows then wd (((mFind s.mir.plock l).map fun y => b2n y.1 + at_ (b2n y.2.1) 1 1 + at_ (b2n y.2.2.1) 2 1 + at_ y.2.2.2 3 9).getD 0
    + at_ x.last 26 2)
  else
  let q := x.owner.bind s.lseq
  let occ := match q with
    | some q => (s.seqCtx q).isSome
    | none => false
  let burst := match q with
    | some q => match q.ph with
      | .burst n => decide (0 < n)
      | .torn => true
      | _ => false
    | none => false
  wd (b2n x.owner.isSome + at_ (b2n occ) 1 1 + at_ (b2n burst) 2 1
    + (if x.owner.isSome then at_ x.engine 3 9 else 0) + at_ x.waiters.length 16 10 + at_ x.last 26 2)

/-! ## The NVM memory (R246, R262-R264) -/

/-- Bytes of a sector (lsect of the header). -/
def State.sectSize (s : State) : Nat := 2 ^ (s.ldr.hdr.getD {}).lsect
/-- The sector that holds an address. -/
def State.sectOf (s : State) (a : Nat) : Nat := a - a % s.sectSize
/-- Where an access to an address goes: a replaced sector's replacement (R262). -/
def State.nvmPhys (s : State) (a : Nat) : Nat := match mFind s.ldr.remap (s.sectOf a) with
  | some r => r + a % s.sectSize
  | none => a
/-- The byte of the NVM memory an access to an address reads; a byte never written reads 0xFF (log 8). -/
def State.nvmByte (s : State) (a : Nat) : Byte := mGet (fun _ => 0xFF#8) s.ldr.nvm (s.nvmPhys a)
/-- `n` bytes from an address. -/
def State.nvmBytes (s : State) (a n : Nat) : List Byte := (List.range n).map fun i => s.nvmByte (a + i)

/-- The physical sectors a range lies in. -/
def State.sectorsOf (s : State) (a n : Nat) : List Nat :=
  (List.range ((a % s.sectSize + n + s.sectSize - 1) / s.sectSize)).map fun i => s.nvmPhys (s.sectOf a + i * s.sectSize)

/-- Whether the flush of a power failure is under way, which waits for no erase (R265, R326). -/
def State.powerFlushing (s : State) : Bool := s.ldr.jobs.any fun j => match j.use with
  | .flush _ _ power => power
  | _ => false

/-- Whether a range within one sector of the NVM memory reads 0xFF throughout. -/
def State.nvmBlank (s : State) (a n : Nat) : Bool :=
  let p := s.nvmPhys a
  !(s.ldr.nvm.any fun x => decide (p ≤ x.1) && decide (x.1 < p + n))

/-- Whether the port may serve a job's next step now: an erase that runs holds everything back; a suspended one lets reads
of other sectors through (R263, R264). -/
def State.nvmServable (s : State) (j : NvmJob) : Bool := match s.ldr.erase, j.steps with
  | none, .erase _ :: _ => !s.powerFlushing
  | none, _ => true
  | some e, .read a n :: _ => e.susp && (s.sectorsOf a n).all fun p => decide (p ≠ e.addr)
  | some _, _ => false

/-- Whether a job of a requester has a step for the port: steps left, and not the erase the memory does by itself (R246, R263). -/
def State.asksPort (s : State) (r : Nat) (j : NvmJob) : Bool := decide (j.req = r) && (match j.steps with
  | [] => false
  | .erase p :: _ => !(s.ldr.erase.any fun e => decide (e.addr = p))
  | _ => true)

/-- The job a requester is at: its first that the port may serve now, else its first; a read that may be served passes one that is
deferred, and a program or erase that waits for the running erase (R246, R263, R264). -/
def State.headJob (s : State) (r : Nat) : Option NvmJob :=
  (s.ldr.jobs.find? fun j => s.asksPort r j && s.nvmServable j).or (s.ldr.jobs.find? fun j => s.asksPort r j)

/-! ## Arbiters (R213-R219) -/

/-- Instance number of an arbiter's key: 0 the outbound port, 1 the SRAM banks (keys 1-48), 2 the NVM port (key 49). -/
def arbKind (key : Nat) : Nat := if key = 0 then 0 else if key ≤ 48 then 1 else 2
/-- The window of an instance. -/
def arbWindow (i : Nat) : Nat := if i = 0 then 256 else if i = 1 then 1024 else 16384
/-- The unit of an instance, in ENG_CLK cycles. -/
def arbUnit (i : Nat) : Nat := if i = 2 then 64 else 1
/-- The emergency requester of an instance. -/
def arbEmerg (i : Nat) : Nat := if i = 0 then 32 else if i = 1 then 7 else 3
/-- The present unit of an instance. -/
def State.unit (s : State) (i : Nat) : Nat := s.eng2 / arbUnit i
/-- The weight OUT_AW.w gives, a larger value acting as the window (R214). -/
def State.awWeight (s : State) (i r : Nat) : Nat := min (fld (s.tw 0x13 (64 * i + r) 0) 0 16) (arbWindow i)
/-- The weight in force: taken at the last window boundary (R214). -/
def State.weight (s : State) (key r : Nat) : Nat :=
  mGet (fun r => weightReset (64 * arbKind key + r)) (s.arb key).weight r
/-- A requester's credit. -/
def State.credit (s : State) (key r : Nat) : Int := mGet (fun _ => 0) (s.arb key).credit r

/-- The unit in which a requester raised the request that stands, none when none stands (R215, R216). SRAM requests stand
from the decision that first names them (log 11). -/
def State.reqAt (s : State) (key r : Nat) : Option Nat :=
  if (s.arb key).masked.contains r then none
  else if key = 0 then
    if r < 32 then (if (s.cluster r).queue.isEmpty || s.domStill (8 + r) then none else some (s.cluster r).reqAt)
    else if s.safeQ.isEmpty then none else some s.safeAt
  else if key ≤ 48 then (mFind (s.arb key).wait r).map Prod.fst
  else match s.headJob r with
    | some j => if s.nvmServable j then some j.at_ else none
    | none => none

/-- Whether a requester's request stands (R216). -/
def State.requests (s : State) (key r : Nat) : Bool :=
  (s.reqAt key r).isSome || (decide (0 < key ∧ key ≤ 48) && decide ((s.arb key).holder = some r))

/-- The writes a locked sequence still has to transfer. -/
def LSeq.left (q : LSeq) : Nat := match q.ph with
  | .burst n => q.writes.length - n
  | _ => q.writes.length

/-- The length of a requester's request, in units: what remains of it (R218); 1 where the spec gives none (log 19). -/
def State.reqLen (s : State) (key r : Nat) : Nat :=
  if key = 0 then
    if r < 32 then ((s.cluster r).queue.map fun i => match i with
      | .marker id => ((s.lseq id).map LSeq.left).getD 1
      | .freed _ (.seq id) => ((s.lseq id).map LSeq.left).getD 1
      | _ => 1).sum else s.safeQ.length
  else 1

/-- Whether requester `a` is taken ahead of `b` by the candidates' rule (R215). -/
def State.aheadOf (s : State) (key a b : Nat) : Bool :=
  let wa := decide (s.weight key a = 0)
  let wb := decide (s.weight key b = 0)
  if wa ≠ wb then wb
  else if s.credit key a ≠ s.credit key b then decide (s.credit key b < s.credit key a) else decide (a < b)

/-- The ordinary requesters of an instance that request, other than the holder. -/
def State.waiting (s : State) (key : Nat) : List Nat :=
  let i := arbKind key
  (List.range (arbEmerg i)).filter fun r => s.requests key r && decide ((s.arb key).holder ≠ some r)

/-- The requesters that would be granted before `r`: the holder, an emergency request that waits, the preempted holder, which takes the
grant back without a decision, and those ahead by the candidates' rule (R215, R217, R218). -/
def State.aheadList (s : State) (key r : Nat) : List Nat :=
  let a := s.arb key
  let em := arbEmerg (arbKind key)
  let w := s.waiting key
  a.holder.toList ++ (if s.requests key em ∧ a.holder ≠ some em then [em] else []) ++
    if a.preempted = some r then []
    else (w.filter fun q => decide (a.preempted = some q)) ++ w.filter fun q => decide (a.preempted ≠ some q) && s.aheadOf key q r

/-- The turn hint of a waiting requester (R218). -/
def State.hint (s : State) (key r : Nat) : Nat :=
  if (s.waiting key).contains r then min 255 ((s.aheadList key r).map (s.reqLen key)).sum else 0

/-- OUT_ASTAT of requester r of instance i; the SRAM banks are reported together (R213, R219). -/
def State.astat (s : State) (i r : Nat) : Word :=
  let keys := if i = 0 then [0] else if i = 1 then (List.range 48).map (· + 1) else [49]
  let c := if r = arbEmerg i then 0 else satInt 16 ((keys.map fun k => s.credit k r).sum)
  wd (b2n (keys.any fun k => s.requests k r) + at_ (b2n (keys.any fun k => decide ((s.arb k).holder = some r))) 1 1
    + at_ ((keys.map fun k => s.hint k r).foldl max 0) 2 8 + at_ (BitVec.ofInt 16 c).toNat 16 16)

/-- TEN_STAT: sources mapped, and a FLUSH that runs. -/
def State.tenStat (s : State) (v : Nat) : Word :=
  let n := ((List.range (min (fld (s.ten v 2) 16 16) 32768)).filter fun i => (s.mapSlot v i).isSome).length
  wd (at_ n 0 15 + at_ (b2n (s.flush.any fun x => decide (x.1 = v))) 15 1)

/-- SNT_FTMR: escalation time left, in units of 32 SLOW_CLK. -/
def State.ftmr (s : State) (f : Nat) : Word := match (s.func f).tmr with
  | some t => wd (cdiv ((s.func f).len - (s.slowEdge - t)) 32)
  | none => 0

/-- Bytes of a record before its crc (R312). -/
def Rec.body (r : Rec) : List Byte :=
  [BitVec.ofNat 8 r.kind, BitVec.ofNat 8 r.flags, BitVec.ofNat 8 r.tenant, 0] ++ leBytes 4 r.rseq.toNat
  ++ leBytes 8 r.time.toNat ++ leBytes 4 r.sub.toNat ++ leBytes 2 r.object ++ leBytes 2 r.reason
  ++ (bytesOf (r.d ++ List.replicate 8 0)).take 32 ++ leBytes 4 r.epoch.toNat

/-- The 64 bytes of a record (R312). -/
def Rec.bytes (r : Rec) : List Byte := r.body ++ wordBytes (crc32 r.body)

/-- A word of a table entry: the stored word, or the live status (R23, R37). -/
def State.tableWord (s : State) (tid idx w : Nat) : Word :=
  match tid, w with
  | 0x01, 1 => s.dspSstat idx
  | 0x01, 3 => s.rnkSstat idx
  | 0x01, 5 => s.seqWord idx
  | 0x02, 3 => s.intStat idx
  | 0x03, 1 => s.msgStat idx
  | 0x03, 2 => s.msgHead idx
  | 0x04, 1 => wd (s.tenUsed idx)
  | 0x05, 1 => s.rnkDstat idx
  | 0x05, 2 => lo32 (s.rnkDhead idx)
  | 0x05, 3 => hi32 (s.rnkDhead idx)
  | 0x05, 4 => (s.dst idx).stamp.setWidth 32
  | 0x06, 0 => wd (s.u idx 2)
  | 0x06, 1 => wd (s.u idx 3)
  | 0x08, 1 => s.dspTstat idx
  | 0x08, 2 => wd (s.load idx)
  | 0x0A, 9 => s.cstat idx
  | 0x0B, 1 => s.estat idx
  | 0x0C, 1 => s.pstat idx
  | 0x12, 0 => s.lkStat idx
  | 0x13, 1 => s.astat (idx / 64) (idx % 64)
  | 0x14, 11 => s.tenStat idx
  | 0x18, 0 => s.fstat idx
  | 0x18, 1 => s.ftmr idx
  | 0x1C, w => ((s.log.hist.getD idx []).getD w 0)
  | _, _ => s.tw tid idx w

/-! ## Registers -/

/-- The states of a base as coded (R135). -/
def BaseSt.code : BaseSt → Nat
  | .disabled => 0 | .held => 1 | .unref => 2 | .run => 3

/-- A direction as coded. -/
def Dir.code : Dir → Nat
  | .still => 0 | .fwd => 1 | .rev => 2

/-- PHS_STAT. -/
def State.phsStat (s : State) (n : Nat) : Word :=
  let b := s.base n
  wd (b.st.code + at_ (s.bdir n).code 2 2 + at_ (b2n b.lastRev) 4 1 + at_ (b2n (b.fheld && b.st == .held)) 5 1
    + at_ (b2n b.ihold) 6 1 + at_ (b2n b.hback) 7 1 + at_ (b2n b.refd) 8 1)

/-- Crossed entries of a base not yet taken (R152). -/
def State.backlog (s : State) (n : Nat) : Nat :=
  let late := fun (c t : Option Nat) => c.isSome && t.isNone && decide (c ≠ some s.rank)
  ((s.ctxs.filter fun x => decide (s.cbase x.1 = n)).map fun x => (x.2.entries.filter fun e => late e.crossed e.taken).length).sum
  + (s.occs.filter fun x => decide (s.cbase x.2.ctx = n) && x.2.entry && late x.2.crossed x.2.taken).length

/-- The exponent of the usage-decay period, RNK_GCFG.dexp as it acts (R84). -/
def State.dexp (s : State) : Nat := max 10 (min 24 (fld (s.reg 0x0800) 16 5))

/-- The bits of a list of engines that a test selects, from bit `lo`. -/
def State.engBits (s : State) (c lo : Nat) (f : Eng → Bool) : Nat :=
  ((List.range 16).map fun b => at_ (b2n (f (s.eng (16 * c + b)))) (lo + b) 1).sum

/-- Number of engines that a test selects. -/
def State.engCount (s : State) (f : Eng → Bool) : Nat := ((List.range 512).filter fun e => f (s.eng e)).length

/-- Engines in Fault: one whose domain is not On is Off and not in Fault (R174). -/
def State.faultCount (s : State) : Nat :=
  ((List.range 512).filter fun e => (s.eng e).st == .fault && s.domOn (engDom e)).length

/-- The roles as coded (MIR_STAT.role). -/
def Role.code : Role → Nat
  | .off => 0 | .solo => 1 | .resync => 3 | .primary => 4 | .standby => 5 | .takeover => 6

/-- MIR_STAT. -/
def State.mirStat (s : State) : Word :=
  let m := s.mir
  wd (m.role.code + at_ (b2n m.link) 3 1 + at_ (b2n m.strap) 4 1 + at_ (b2n m.behind) 5 1 + at_ (b2n m.lapsed) 6 1
    + at_ (b2n m.fence) 7 1 + at_ (b2n m.fack) 8 1)

/-- Age of the oldest unacknowledged entry, in units of 64 RANK_CLK. -/
def State.jAge (s : State) : Nat := match s.mir.journal with
  | j :: _ => min ((s.rank - j.at_) / 64) 0xFFFF
  | [] => 0

/-- The phases as coded (LDR_STAT.phase). -/
def Phase.code : Phase → Nat
  | .header => 0 | .check => 1 | .load => 2 | .opened => 3 | .failed => 4

/-- Erased flush blocks of region 6 (R327). -/
def State.flushBlocks (s : State) : Nat := match s.region 6 with
  | some (a, n) => ((List.range (n / 4096)).filter fun i => s.nvmBlank (a + 4096 * i) 4096).length
  | none => 0

/-- Whether an engine still runs on the outgoing copy: LDR_STAT.drain (R259). -/
def State.draining (s : State) : Bool := s.engs.any fun x => x.2.oldCopy

/-- LDR_STAT. -/
def State.ldrStat (s : State) : Word :=
  let l := s.ldr
  wd (b2n l.busy + at_ l.phase.code 1 3 + at_ l.path 4 2 + at_ l.prof 6 2 + at_ l.cstat 8 4
    + at_ (b2n l.erase.isSome) 12 1 + at_ (b2n (match l.erase with
      | some e => e.susp
      | none => false)) 13 1
    + at_ (b2n l.spend) 14 1 + at_ (b2n s.draining) 15 1)

/-- A protection record of region 9 (R266): its 64 bytes, when valid and its crc is right. -/
def State.protRec (s : State) (k : Nat) : Option (List Byte) := match s.region 9 with
  | some (a, n) =>
    if 64 * (k + 1) ≤ n then
      let bs := s.nvmBytes (a + 64 * k) 64
      if bs.getD 2 0 = 0xA5#8 ∧ wordBytes (crc32 (bs.take 60)) = bs.drop 60 then some bs else none
    else none
  | none => none

/-- REC_STAT. -/
def State.recStat (s : State) : Word :=
  let l := s.log
  wd (b2n l.degr + at_ (b2n (bit (s.reg 0x3408) 0)) 1 1 + at_ (b2n l.drain) 2 1 + at_ (b2n (decide (1024 ≤ l.gsN))) 3 1
    + at_ (b2n l.clearing) 4 1 + at_ (b2n s.flushRuns) 5 1 + at_ l.cstat 6 4 + at_ s.flushBlocks 16 16)

/-- The domain state codes of PWR_DSTAT0-2. -/
def State.dstat (s : State) (i : Nat) : Word :=
  if i = 0 then wd (((List.range 5).map fun d => at_ (s.dom d).code (2 * d) 2).sum + at_ (b2n s.pwr.ropen) 16 1)
  else wd ((List.range 16).map fun k => at_ (s.dom (8 + 16 * (i - 1) + k)).code (2 * k) 2).sum

/-- SLOW_CLK cycles within the second (R330). -/
def State.tick (s : State) : Nat := s.slowEdge - s.log.secEdge

/-- A lantern register's live value (R33). -/
def State.liveReg (s : State) (off : Nat) : Word :=
  match off with
  | 0x2800 => 0
  | 0x2804 => wd (s.mode + at_ (b2n s.pwr.trans.isSome) 3 1 + at_ s.pwr.cstat 4 3 + at_ (b2n (match s.pwr.trans with
      | some t => t.pm
      | none => false)) 7 1)
  | 0x2814 => s.dstat 0
  | 0x2818 => s.dstat 1
  | 0x281C => s.dstat 2
  | 0x3500 => wd s.log.sec.toNat
  | 0x3504 => wd (s.log.sec.toNat / 2 ^ 32 + at_ (b2n s.log.cv) 31 1)
  | 0x3508 => wd (at_ s.tick 0 15)
  | 0x350C => wd (at_ s.log.opSec 0 12 + at_ s.log.opHour 12 20)
  | 0x3510 => wd (at_ s.log.gaspNext 0 3 + at_ (b2n s.log.gaspSeen) 3 1)
  | _ => s.reg off

/-- The offsets of the lantern domain's slow-copy registers. -/
def lanOffs : List Nat :=
  [0x2800, 0x2804, 0x2808, 0x280C, 0x2810, 0x2814, 0x2818, 0x281C, 0x2820, 0x2824, 0x2828, 0x282C, 0x2830, 0x2834, 0x2838,
   0x2840, 0x2844, 0x2848, 0x284C, 0x2850, 0x2854, 0x2858, 0x2860, 0x2864, 0x2868, 0x3500, 0x3504, 0x3508, 0x350C, 0x3510]
  ++ (List.range 40).map fun d => 0x2880 + 4 * d

/-- What a slow copy reads after lantern power-on reset. -/
def slowDef (off : Nat) : Word := regReset off

/-- The copies of the lantern registers take their live values (R33). -/
def State.refreshSlow (s : State) : State :=
  { s with slow := lanOffs.foldl (fun m off => mSet slowDef m off (s.liveReg off)) s.slow }

/-- A register as window `win` reads it, before any tenant rule: stored, live, or its slow copy (R23, R33). RNK_VT.dcount shows the cycles
to the next decay (R84), and 2^24 reads as 0 in its 24 bits (DESIGN CHOICE, log 97). It, LDR_PSEL, MIR_STAT and TBL_STAT.sel_err read their
Reset column until the first edge after a reset, from which hardware drives them (R344; DEDUCED, log 135). -/
def State.readReg (s : State) (win off : Nat) : Word :=
  let w := s.win win
  if lanOffs.contains off then mGet slowDef s.slow off
  else match off with
  | 0x0008 => if win = 0 then 0x10000 else wd (win - 1)
  | 0x0204 => wd (at_ (s.ins.filter fun x => x.2.stuck).length 0 12
      + at_ ((List.range 2048).filter fun n => s.storm n).length 16 12)
  | 0x0604 => wd (at_ s.poolUsed 0 17 + at_ (b2n (decide (65536 ≤ s.poolUsed))) 17 1
      + at_ (b2n (decide (16 ≤ (s.fifo.filter fun x => decide (x.2.port = 0)).length))) 18 1
      + at_ (b2n (decide (16 ≤ (s.fifo.filter fun x => decide (x.2.port = 1)).length))) 19 1
      + at_ (b2n (decide (64 ≤ (s.rqOf 0).length))) 20 1 + at_ (b2n (decide (64 ≤ (s.rqOf 1).length))) 21 1)
  | 0x0804 => wd (at_ (s.dsts.foldl (fun n x => n + x.2.shelf.length) 0) 0 15
      + at_ (b2n ((List.range 576).any fun d => s.c1over d)) 16 1)
  | 0x0808 => if s.rank = 0 then 0 else wd (at_ (s.decayAt + 2 ^ s.dexp - s.rank) 0 24)
  | 0x0C00 => wd (at_ (s.dsts.filter fun x => x.2.offer.isSome || x.2.c0.isSome).length 0 10
      + at_ (s.srcs.filter fun x => x.2.st == .active).length 16 15)
  | 0x1404 => wd (at_ (s.ctxs.filter fun x => !x.2.entries.isEmpty || x.2.waiting).length 0 13
      + at_ (s.occs.foldl (fun n x => n + x.2.places.length) 0) 16 13)
  | 0x1804 => wd (at_ (s.engCount fun x => x.st.busy) 0 10 + at_ s.faultCount 16 10)
  | 0x1C04 => wd (at_ ((s.arb 0).holder.getD 0) 0 6 + at_ (b2n (s.arb 0).holder.isSome) 6 1 + at_ (b2n (decide ((s.arb 0).holder = some 32))) 7 1
      + at_ (s.locks.filter fun x => x.2.owner.isSome).length 8 7
      + at_ ((List.range 64).filter fun l => bit (s.lkStat l) 1).length 16 7)
  | 0x2008 => wd (b2n (!s.flush.isEmpty) + at_ s.mapStat 1 3)
  | 0x240C => s.ldrStat
  | 0x2410 => s.ldr.startW
  | 0x2414 => s.ldr.epoch
  | 0x2418 => if s.rank = 0 then 0 else wd (at_ s.ldr.pins 0 2 + at_ s.ldr.sel 2 2 + at_ (b2n s.ldr.ret.override) 4 1)
  | 0x2424 => wd ((s.ldr.unl.map fun k => at_ 1 k 4).sum + at_ s.ldr.fails 4 4 + at_ (b2n s.ldr.lockout) 8 1
      + at_ (b2n ((List.range 4).any fun k => (s.protRec k).isSome)) 9 1)
  | 0x2C08 => if s.rank = 0 then 0 else s.mirStat
  | 0x2C0C => wd (at_ s.mir.journal.length 0 15 + at_ s.jAge 16 16)
  | 0x2C14 => wd (at_ s.mir.cause 0 3 + at_ (b2n s.mir.seen) 3 1)
  | 0x3004 => wd (b2n s.snt.safe + at_ (b2n s.snt.pcreq) 1 1 + at_ (s.func fnDevice).step 2 3
      + at_ (b2n (s.func fnDevice).tmr.isSome) 5 1)
  | 0x3404 => s.recStat
  | 0x3410 => s.log.rseq
  | 0x3414 => wd s.log.gsN
  | 0x33D8 => wd (b2n (!w.posted.isEmpty) + at_ w.posted.length 1 3 + at_ ((w.posted.head?.map Posted.off).getD 0) 16 16)
  | 0x3488 => wd (b2n w.recBusy + at_ (b2n w.recFound) 1 1)
  | 0x3808 =>
    let sel := s.regW win 0x3800
    wd (b2n w.busy + at_ (b2n w.snapValid) 1 1 + (if s.rank = 0 ∨ tblHas (fld sel 24 8) (fld sel 0 24) then 0 else 4))
  | _ =>
    if 0x0100 ≤ off ∧ off < 0x0130 then (if win = 0 then 0 else s.tableWord 0x14 (win - 1) ((off - 0x100) / 4))
    else if 0x1000 ≤ off ∧ off < 0x1400 then
      let n := (off - 0x1000) / 0x40
      match (off - 0x1000) % 0x40 with
      | 0x1C => 0
      | 0x20 => lo32 (s.base n).ap
      | 0x24 => hi32 (s.base n).ap
      | 0x28 => s.bvel n
      | 0x2C => s.phsStat n
      | _ => s.reg off
    else if 0x1440 ≤ off ∧ off < 0x1480 then
      let n := (off - 0x1440) / 4
      wd (at_ (s.backlog n) 0 13 + at_ (b2n (s.base n).rebuild.isSome) 16 1)
    else if 0x1840 ≤ off ∧ off < 0x18C0 then
      let c := (off - 0x1840) / 4
      wd (s.engBits c 0 (fun x => x.st.busy) + s.engBits c 16 (fun x => x.st == .done))
    else if 0x34C0 ≤ off ∧ off < 0x3500 then mGet (fun _ => 0) w.recWin ((off - 0x34C0) / 4)
    else if 0x3840 ≤ off ∧ off < 0x3880 then mGet (fun _ => 0) w.snap ((off - 0x3840) / 4)
    else match regAt off with
      | some r => if r.kind = .cmd then 0 else s.regW win off
      | none => 0

end Sys2Proof.Machine
end

