-- ==== Sys2Proof/Machine/Journal.lean ====
section
/-! DEFINITION. The mirror journal: what enters it when a command has acted (R285, R287), and the answer every
meaning gives. -/

namespace Sys2Proof.Machine

/-- Change the mirror's state. -/
def State.modMir (s : State) (f : Mir → Mir) : State := { s with mir := f s.mir }

/-- A loss or a refused pairing is counted by its caller and shown here (MIR_LAST_EV), recorded, and raised when
MIR_CFG.praise = 1 (R283, R289, R313). -/
def State.mirEvent (s : State) (cause : Nat) (raises : Bool) : State :=
  let s := s.modMir fun m => if cause = 7 then m else { m with cause := cause, seen := true }
  let s := s.record 0x0E 0 cause [s.mirStat]
  onlyIf (raises && bit (s.reg 0x2C00) 7) (·.house 0x5A12) s

/-- The pairing ends: the journal's state is dropped (R287, R289, R290). -/
def Mir.unpaired (m : Mir) (r : Role) : Mir :=
  { m with role := r, journal := [], behind := false, lapsed := false, gapped := false, snapGot := false, snapOn := false, snapLeft := 0 }

/-- The place of an entry among those of its edge: its kind, then its object (R285). -/
def jOrder : JEntry → Nat
  | .inst p _ _ _ _ _ => 2 ^ 40 + p
  | .ctx k _ _ => 2 * 2 ^ 40 + k
  | .base n _ _ _ => 3 * 2 ^ 40 + n
  | .lock n _ _ _ _ => 4 * 2 ^ 40 + n
  | .cnt t w i _ => 5 * 2 ^ 40 + tKey (t % 256) (i % 0x8000) (w % 16)
  | .cfg t w i _ => 6 * 2 ^ 40 + tKey (t % 256) (i % 0x8000) (w % 16)

/-- An entry takes its place in the journal: after those of earlier edges and, at its own, after those that come before it (R285). -/
def putItem (x : JItem) : List JItem → List JItem
  | [] => [x]
  | y :: t => if y.at_ = x.at_ ∧ y.fseq.isNone ∧ jOrder x.e < jOrder y.e then x :: y :: t else y :: putItem x t

/-- An entry enters the journal; a full journal ends the pairing, and the HELLO of the block that is Solo then brings its standby back to
Resync (R285, R287, R293; log 139). -/
def State.journalPut (s : State) (e : JEntry) : State :=
  if s.mir.role ≠ .primary then s
  else if s.mir.journal.length < 16384 then
    s.modMir fun m => { m with journal := putItem { at_ := s.rank, fseq := none, e := e, late := m.behind } m.journal }
  else ((s.bump 0x2C30).modMir fun m => { m.unpaired .solo with helloAt := s.rank }).mirEvent 6 false

/-- A word is committed by a steward write or a table-port WRITE: its CFG entry (R285). -/
def State.noteWrite (s : State) (table word entry : Nat) (value : Word) : State :=
  onlyIf (bit (s.reg 0x2C00) 5) (·.journalPut (.cfg table word entry value)) s

/-- Keys at which two maps differ, ascending. -/
def diffKeys {α : Type} [DecidableEq α] (d : Nat → α) (m n : SMap α) : List Nat :=
  ((mKeys2 m n).filter fun k => decide (mGet d m k ≠ mGet d n k)).mergeSort (· ≤ ·)

/-- The INST entry of a source. -/
def State.jInst (s : State) (p : Nat) : JEntry :=
  let x := s.src p
  .inst p x.st.code x.q.length x.dst x.seq.toNat ((x.q.head?.map Inst.payload).getD 0)
/-- The CTX entry of a context. -/
def State.jCtx (s : State) (k : Nat) : JEntry := .ctx k (fld (s.cstat k) 0 14) (s.ctgt k)
/-- The BASE entry of a base. -/
def State.jBase (s : State) (n : Nat) : JEntry :=
  .base n (fld (s.phsStat n) 0 9) (s.reg (0x103C + 0x40 * n)) (hi32 (s.base n).ap)
/-- What of a base the journal follows: its state, offset and turn count (R285). -/
def State.jBaseOf (s : State) (n : Nat) : BaseSt × Word × Word := ((s.base n).st, s.reg (0x103C + 0x40 * n), hi32 (s.base n).ap)
/-- The LOCK entry of a lock. -/
def State.jLock (s : State) (l : Nat) : JEntry :=
  let w := s.lkStat l
  .lock l (bit w 0) (bit w 1) (bit w 2) (fld w 3 9)

/-- Whether a table's counts are written by no software: the lifetime, tenant and wear counts (R332-R334). -/
def isTally (tid : Nat) : Bool := decide (0x19 ≤ tid ∧ tid ≤ 0x1B)

/-- Whether a word of the lifetime and tenant counts is the high half of a count, which its low half's entry stands for. -/
def isHighHalf (tid w : Nat) : Bool := decide (tid ≠ 0x1B) && decide (w % 2 = 1)

/-- The CNT entry of a count that advanced by `n`. -/
def jCnt (k : Nat) (n : W64) : JEntry := .cnt (k / 0x80000) (k % 16) (k / 16 % 0x8000) n

/-- The CNT entries of the advances from `s` to `t`: of the counters that software may write, what hardware counted, so that a WRITE of one
is no advance; of the others, what they moved by (R8, R285). -/
def jCounts (s t : State) : List JEntry :=
  let cnt := ((diffKeys (fun _ => 0) s.edge.tcnt t.edge.tcnt).filter fun k => !isTally (k / 0x80000)).map fun k =>
    jCnt k (BitVec.ofNat 64 (mGet (fun _ => 0) t.edge.tcnt k - mGet (fun _ => 0) s.edge.tcnt k))
  let moved := (diffKeys tblReset s.tbl t.tbl).filter fun k => isTally (k / 0x80000) && !isHighHalf (k / 0x80000) (k % 16)
  cnt ++ moved.map fun k => jCnt k ((mGet tblReset t.tbl k - mGet tblReset s.tbl k).setWidth 64)

/-- The INST, CTX, BASE, LOCK and CNT entries of the changes from `s` to `t`, in the order of the table (R285; log 20). -/
def changes (s t : State) : List JEntry :=
  let cfg := t.reg 0x2C00
  let inst := if bit cfg 1 then
      ((diffKeys (fun _ => {}) s.srcs t.srcs).filter fun p =>
        decide ((s.src p).st ≠ (t.src p).st ∨ (s.src p).q.length ≠ (t.src p).q.length)).map t.jInst else []
  let ctx := if bit cfg 2 then
      ((diffKeys (fun _ => {}) s.ctxs t.ctxs).filter fun k => decide (s.jCtx k ≠ t.jCtx k)).map t.jCtx else []
  let base := if bit cfg 2 then
      ((List.range 16).filter fun n => decide (s.jBaseOf n ≠ t.jBaseOf n)).map t.jBase else []
  let lock := if bit cfg 3 then
      ((List.range 64).filter fun l => decide (s.jLock l ≠ t.jLock l)).map t.jLock else []
  inst ++ ctx ++ base ++ lock ++ (if bit cfg 4 then jCounts s t else [])

/-- While the block is Primary, the changes a command made enter the journal (R285). -/
def journaled (s t : State) : State :=
  if s.mir.role = .primary ∧ t.mir.role = .primary then forEach (changes s t) (fun e t => t.journalPut e) t else t

/-- A warm reset that the command asserted acts (R305, R306). -/
def State.settleWarm (s : State) : State := if s.snt.warmDue then s.warmReset else s

/-- What every meaning answers: the state its effect leads to, with the changes journaled, a warm reset it asserted carried
out, and the queue of waiting commands as it stood. -/
def done (s t : State) : Out := .next { (journaled s t).settleWarm with pending := s.pending }

end Sys2Proof.Machine
end

