-- ==== Sys2Proof/Machine/Wired.lean ====
section
/-! DEFINITION. Wired intake: the meanings of its commands (03). -/

namespace Sys2Proof.Machine

/-- The filtered level of an input changes: sense, enable, interval, then stages 7 to 9 (R40-R46). -/
def State.filteredChange (s : State) (n : Nat) (lvl : Bool) : State :=
  let s := s.modIn n fun x => { x with level := lvl }
  if s.sense n = 0 then (if lvl then s.levelTry n else s)
  else if raisesOn (s.sense n) lvl && bit (s.wcfg n) 0 then
    if s.meiOver n then (s.passMei n).stages79 n
    else (s.modIn n fun x => { x with coal := true }).bumpTw 0x02 n 5
  else s

/-- The effect of WIRED_INPUT_CHANGE: a change seen on fewer than F + 1 samples is rejected and counted (R40, R41). While
D_CORE's clock does not run only the pin moves. -/
def State.wireChange (s : State) (n : Nat) (pin : Bool) (samples : Nat) : State :=
  if s.domStill 0 then s.modIn n fun x => { x with pin := pin }
  else
    let lvl := xor pin (bit (s.wcfg n) 1)
    if samples < fld (s.wcfg n) 4 4 + 1 then
      if lvl = (s.inp n).level then s else s.bumpTw 0x02 n 8
    else
      let s := s.modIn n fun x => { x with pin := pin }
      if lvl = (s.inp n).level then s else s.filteredChange n lvl

/-- WIRED_INPUT_CHANGE (R40). -/
def execWiredInputChange (n : Nat) (pin : Bool) (samples : Nat) (s : State) : Out :=
  done s (if n < 2048 then s.wireChange n pin samples else s)

/-- The effect of MEI_EXPIRY (R43, R46). -/
def State.meiExpire (s : State) (n : Nat) : State :=
  let x := s.inp n
  if x.meiOn ∧ s.meiOver n then
    let s := s.modIn n fun y => { y with meiOn := false, coal := false }
    if s.sense n = 0 then s.levelTry n
    else if x.coal && decide (x.level ≠ x.passLevel) && raisesOn (s.sense n) x.level && bit (s.wcfg n) 0 then
      (s.passMei n).stages79 n
    else s
  else s

/-- MEI_EXPIRY (R46). -/
def execMeiExpiry (n : Nat) (s : State) : Out := done s (if n < 2048 then s.meiExpire n else s)

/-- The stuck-active detector at one tick (R48, R49). -/
def State.stuckTick (s : State) (n : Nat) : State :=
  let x := s.inp n
  let w := s.tw 0x02 n 1
  let limit := fld w 0 24
  let pol := fld w 24 2
  let mask := fun (s : State) => onlyIf (pol = 1 || pol = 2) (·.clearEn 0x02 n) s
  if limit = 0 ∨ x.level = false then s.modIn n fun y => { y with stuckCnt := 0, stuck := false }
  else if x.stuck then mask s
  else if x.stuckCnt + 1 < limit then s.modIn n fun y => { y with stuckCnt := y.stuckCnt + 1 }
  else
    let s := (s.modIn n fun y => { y with stuckCnt := limit, stuck := true }).bumpTw 0x02 n 7
    let s := mask (s.setReg 0x0208 (wd (n + 0x10000)))
    onlyIf (pol = 2) (·.house 0x5A08) s

/-- The effect of INTAKE_TICK: the tick ends div + 1 cycles after the last (R48, R58). Inputs are judged in ascending order, so of
several onsets at one tick INT_LAST_STUCK keeps the highest input (DESIGN CHOICE, log 89). -/
def State.tickEnd (s : State) : State :=
  let len := fld (s.reg 0x0200) 0 20 + 1
  if s.tickAt + len ≤ s.rank ∧ s.domStill 0 = false then
    let s := { s with ticks := s.ticks + 1, tickAt := s.tickAt + len }
    forEach (mKeys s.ins) (fun n s => (s.stuckTick n).retryTick n) s
  else s

/-- INTAKE_TICK (R58). -/
def execIntakeTick (s : State) : Out := done s s.tickEnd

/-- The effect of STORM_REFILL (R43, R50, R51). -/
def State.refillStorm (s : State) (n : Nat) : State :=
  let w := s.tw 0x02 n 2
  let period := fld w 16 14
  let x := s.inp n
  if fld w 0 8 ≠ 0 ∧ period ≠ 0 ∧ x.refillTick + period ≤ s.ticks then
    let s := s.modIn n fun y => { y with tokens := min (fld w 0 8) (y.tokens + fld w 8 8), refillTick := y.refillTick + period }
    s.retryTick n
  else s

/-- STORM_REFILL (R50). -/
def execStormRefill (n : Nat) (s : State) : Out := done s (if n < 2048 then s.refillStorm n else s)

/-- The effect of WIRE_WAKE_LATCH (R56). -/
def State.wakeLatch (s : State) (n : Nat) (pin : Bool) : State :=
  let old := (s.inp n).pin
  let s := s.modIn n fun x => { x with pin := pin }
  let hi := decide (32 ≤ n)
  let b := n % 32
  let off := if hi then 0x2858 else 0x2854
  let enabled := bit (s.reg (if hi then 0x2844 else 0x2840)) b
  let active := if bit (s.reg (if hi then 0x284C else 0x2848)) b then !pin else pin
  if old ≠ pin ∧ enabled ∧ active ∧ bit (s.reg off) b = false then
    let s := (s.setReg off (s.reg off ||| wd (2 ^ b))).modPwr fun p => { p with wakePins := mPut p.wakePins n pin }
    onlyIf (bit (s.reg 0x2830) 3) (·.wakeReq { at_ := s.slowEdge, src := 3, pin := some n }) s
  else s

/-- WIRE_WAKE_LATCH (R56). -/
def execWireWakeLatch (n : Nat) (pin : Bool) (s : State) : Out :=
  done s (if n < 64 ∧ s.domOn 0 = false then s.wakeLatch n pin else s)

/-- The Class 0 source a target's direct path delivers next: the lowest prio, ties to the lower input (R54). -/
def State.c0Next (s : State) (t : Nat) : Option Nat :=
  ((s.srcs.filter fun x => x.2.st == .pending && x.2.place == .direct && decide (x.2.dst = t)).map Prod.fst).foldl
    (fun m p => match m with
      | none => some p
      | some q => if (s.src p).key.prio < (s.src q).key.prio then some p else some q) none

/-- The effect of DIRECT_PATH_NOTIFY: the Class 0 NOTIFY, replacing an ordinary offer in that cycle (R16, R54, R96, R112). -/
def State.c0Notify (s : State) (t : Nat) : State :=
  let x := s.dst t
  match s.c0Next t with
  | some p =>
    if s.serving ∧ s.domStill 0 = false ∧ s.dstUp t ∧ x.c0.isNone then
      let s := s.unform t
      let b := s.reg (0x0404 + 8 * p)
      let id := (s.src p).told.getD (fld b 0 15, fld b 16 8)
      let o := { psn := p, cls := 0, prio := (s.src p).key.prio, vtag := id.1, tenant := id.2,
                 seq := (s.src p).seq, replay := (s.src p).replay, start := s.rank, conf := some s.rank : Offer }
      let s := onlyIf x.offer.isSome (·.bumpTw 0x08 t 6) s
      let s := s.modDst t fun y =>
        { y with c0 := some o, parked := y.offer.or y.parked, offer := none, retractAt := none,
                 timer := if fld (s.tcfg t) 8 12 = 0 then none else some s.rank }
      (s.modSrc p fun y => { y with st := .staged, place := .offer, since := s.rank, told := some id }).bumpTw 0x08 t 3
    else s
  | none => s

/-- DIRECT_PATH_NOTIFY (R96). -/
def execDirectPathNotify (t : Nat) (s : State) : Out := done s (if t < 512 then s.c0Notify t else s)

end Sys2Proof.Machine
end

