-- ==== Sys2Proof/Machine/Ranking.lean ====
section
/-! DEFINITION. Ranking: the meanings of its commands (05). -/

namespace Sys2Proof.Machine

/-! ## ENTRY_INSERTION (R92) -/

/-- The sources that wait at stage 6 of a bank, by how they came there. -/
def State.waitAt6 (s : State) (b : Nat) (pl : Place) : List Nat :=
  (s.srcs.filter fun x => x.2.st == .pending && x.2.place == pl && decide (bankOf x.2.dst = b)).map Prod.fst

/-- The entry whose instance became Pending earliest, ties to the lower destination, then to the lower PSN (R92; log 92). -/
def State.earliest (s : State) : List Nat → Option Nat
  | [] => none
  | p :: t => match s.earliest t with
    | none => some p
    | some q =>
      let a := s.src p
      let b := s.src q
      if a.pendAt < b.pendAt ∨ a.pendAt = b.pendAt ∧ a.dst ≤ b.dst then some p else some q

/-- The first destination of a round that starts after `last` and has a waiting entry (R92). -/
def nextInRound (last : Nat) (ds : List Nat) : Option Nat :=
  match (ds.mergeSort (· ≤ ·)).find? fun d => decide (last < d) with
  | some d => some d
  | none => (ds.mergeSort (· ≤ ·)).head?

/-- The entry a bank takes at stage 6: Class 1 first, then Classes 2 and 3 in turn, sweeper re-insertions last (R92). Among a
destination's Class 2 and 3 entries the one Pending earliest goes first whatever its class, and among sweeper re-insertions the
most urgent key, ages taken against count 0 (DESIGN CHOICE, log 92). -/
def State.chooseSlot (s : State) (b : Nat) : Option Nat :=
  let w := s.waitAt6 b .wait6
  match s.earliest (w.filter fun p => decide ((s.src p).key.cls = 1)) with
  | some p => some p
  | none =>
    match nextInRound (s.bank b).served (w.map fun p => (s.src p).dst) with
    | some d => s.earliest (w.filter fun p => decide ((s.src p).dst = d))
    | none => s.mostUrgent 0 (s.waitAt6 b .unshelve)

/-- A settling entry whose class and priority are strictly more urgent than those of an offer past edge 3 schedules the
offer's RETRACT (R111). -/
def State.preempt (s : State) (d p : Nat) : State :=
  let x := s.dst d
  match x.offer with
  | some o =>
    let settle := (s.src p).settled
    let okey := { cls := o.cls, prio := o.prio : Key }
    if (s.src p).place = .heap ∧ o.start + 3 < settle ∧ moreUrgentCP (s.src p).key okey then
      let at_ := max (o.start + 7) (settle + 3)
      s.modDst d fun y => { y with retractAt := some (match y.retractAt with
        | some t => min t at_
        | none => at_) }
    else s
  | none => s

/-- An entry takes the slot: stage 7 places it at the next edge; the insertion counts (R88, R91, R92). -/
def State.insertAt (s : State) (b p : Nat) : State :=
  let x := s.src p
  let s := s.modBank b fun y => { y with slotAt := some s.rank, served := if x.place = .wait6 ∧ 2 ≤ x.key.cls then x.dst else y.served }
  (s.modSrc p fun y => { y with place := .slotted (decide (x.place = .unshelve)), slot := s.rank }).bumpTw 0x05 x.dst 5

/-- Stage 7 of an entry: it is placed, to settle at stage 9, and may preempt an offer (R88, R89, R91, R111). -/
def State.stage7 (s : State) (p : Nat) : State :=
  let x := s.src p
  let s := s.place x.dst p (x.slot + 4)
  let s := onlyIf (decide (x.place = .slotted true) && (s.src p).place == .heap) (·.bumpTw 0x05 x.dst 7) s
  s.preempt x.dst p

/-- The entries whose stage 7 falls at the present edge, in ascending PSN order. -/
def State.dueStage7 (s : State) : List Nat :=
  (s.srcs.filter fun x => (x.2.place == .slotted true || x.2.place == .slotted false) && decide (x.2.slot < s.rank)).map Prod.fst

/-- The effect of ENTRY_INSERTION: a bank takes one insertion per RANK_CLK cycle. -/
def State.insertSlot (s : State) (b : Nat) : State :=
  if (s.bank b).slotAt = some s.rank ∨ s.domStill 0 then s
  else match s.chooseSlot b with
    | some p => s.insertAt b p
    | none => s

/-- ENTRY_INSERTION (R92). -/
def execEntryInsertion (bank : Nat) (s : State) : Out := done s (if bank < 32 then s.insertSlot bank else s)

/-! ## USAGE_DECAY (R84) -/

/-- Every usage level is halved, and the next period begins (R84). -/
def State.decay (s : State) : State :=
  if s.decayAt + 2 ^ s.dexp ≤ s.rank ∧ s.domStill 0 = false then
    { s with decayAt := s.decayAt + 2 ^ s.dexp,
             usage := (s.usage.map fun x => (x.1, x.2 / 2)).filter fun x => decide (x.2 ≠ 0) }
  else s

/-- The pipeline's work of the present edge, as it ends: the decay that is due and the charges of stage 4, the stamps of stage 5, the
placements of stage 7 (R85, R91). -/
def State.pipeWork (s : State) : State :=
  let s := if (s.atStage 4).isEmpty then s else s.decay.charges
  let s := s.stage5
  forEach s.dueStage7 (fun p s => s.stage7 p) s

/-- USAGE_DECAY (R84). -/
def execUsageDecay (s : State) : Out := done s s.decay

/-! ## SWEEPER_VISIT (R83, R89) -/

/-- A key whose stamp is older than 2^22 insertions, set to that age (R83). -/
def Key.clamped (k : Key) (n : BitVec 24) : Key :=
  if 2 ^ 22 < age n k.stamp then { k with stamp := n - (2 ^ 22 : BitVec 24) } else k

/-- The stamps of a destination's entries, and of its shelf-best key with them, are clamped (R83). -/
def State.clampAges (s : State) (d : Nat) : State :=
  let n := (s.dst d).stamp
  let s := forEach ((s.dst d).heap ++ (s.dst d).shelf) (fun p s => s.modSrc p fun x => { x with key := x.key.clamped n }) s
  s.modDst d fun y => { y with best := y.best.map fun k => k.clamped n }

/-- RNK_GCFG.swp_lo as it acts. -/
def State.swpLo (s : State) : Nat := max 1 (min 60 (fld (s.reg 0x0800) 0 6))
/-- RNK_GCFG.swp_batch as it acts. -/
def State.swpBatch (s : State) : Nat := max 1 (min 8 (fld (s.reg 0x0800) 8 4))

/-- The most urgent shelf entries are taken for re-insertion, within the heap's free places for their classes (R87,
R89). `free` and `free23` are the places left for any class and for Classes 2 and 3. -/
def State.takeShelf (d : Nat) : Nat → Nat → Nat → State → State
  | 0, _, _, s => s
  | n + 1, free, free23, s =>
    match s.mostUrgent (s.dst d).stamp (s.dst d).shelf with
    | some p =>
      let low := decide (2 ≤ (s.src p).key.cls)
      if free = 0 ∨ (low ∧ free23 = 0) then s
      else
        let s := s.modDst d fun y => { y with shelf := y.shelf.filter (· ≠ p) }
        let s := s.modSrc p fun x => { x with place := .unshelve, since := s.rank }
        State.takeShelf d n (free - 1) (if low then free23 - 1 else free23) s
    | none => s

/-- The shelf-best key becomes the most urgent entry that remains, and the mark is cleared (R89). -/
def State.resetBest (s : State) (d : Nat) : State :=
  let b := match s.mostUrgent (s.dst d).stamp (s.dst d).shelf with
    | some p => some (s.src p).key
    | none => none
  s.modDst d fun y => { y with best := b, mark := false }

/-- Whether a destination is due for the sweeper: its heap is low and its shelf holds an entry, or it is marked (R89). -/
def State.sweepDue (s : State) (d : Nat) : Bool :=
  ((s.dst d).mark || (!(s.dst d).shelf.isEmpty && decide ((s.dst d).heap.length < s.swpLo)))

/-- The destination a bank's sweeper visits next: in ascending order after the last (R89). -/
def State.nextSweep (s : State) (b : Nat) : Option Nat := nextInRound (s.bank b).swept ((bankDsts b).filter s.sweepDue)

/-- The end of a sweeper's scan of a due destination: the re-insertions when the heap is low, the shelf-best key (R89). -/
def State.visitEnd (s : State) (b d : Nat) : State :=
  let h := (s.dst d).heap
  let s := if h.length < s.swpLo then
      State.takeShelf d s.swpBatch (64 - h.length)
        (60 - (h.filter fun p => decide (2 ≤ (s.src p).key.cls)).length) s
    else s
  (s.resetBest d).modBank b fun y => { y with swept := d, sweptAt := s.rank }

/-- A sweeper visit of a destination of its bank that ends its scan at this edge, at 1 shelf entry a cycle since the bank's last
visit: the clamp, and at a destination whose turn it is the rest of the visit (R83, R89; log 94). -/
def State.sweep (s : State) (b d : Nat) : State :=
  if bankOf d = b ∧ s.domStill 0 = false ∧ (s.bank b).sweptAt + (s.dst d).shelf.length ≤ s.rank then
    let due := s.nextSweep b = some d
    let s := s.clampAges d
    if due then s.visitEnd b d else s
  else s

/-- SWEEPER_VISIT (R89). -/
def execSweeperVisit (bank d : Nat) (s : State) : Out := done s (if d < 576 then s.sweep bank d else s)

end Sys2Proof.Machine
end

