-- ==== Sys2Proof/Machine/Offers.lean ====
section
/-! DEFINITION. Dispatch: offers, claims, completions and destinations that come and go (06). -/

namespace Sys2Proof.Machine

/-! ## SPECULATIVE_OFFER (R104, R110, R112, R116, R120) -/

/-- The reason the delivery checker fails an entry for, 0 for none, from the source-state words as they stand before the offer; a
source that is Staged or Active fails as DUPLICATE, and an entry whose RNK_SCFG was written after stage 10 took it passes with its old
key (R90, R95; log 95). -/
def State.checkOf (s : State) (d p : Nat) : Nat :=
  let x := s.src p
  if x.st = .staged ∨ x.st = .active then 5
  else if x.st ≠ .pending then 2
  else if x.dst ≠ d then 3
  else if x.oldKey = false ∧ (x.key.cls ≠ s.heapCls p ∨ x.key.prio ≠ s.prio p) then 4
  else 0

/-- The offer a source's entry forms at stage 12 (R103, R104). -/
def State.offerOf (s : State) (d p : Nat) : Offer :=
  let x := s.src p
  { psn := p, cls := x.key.cls, prio := x.key.prio, vtag := s.sidVtag p, tenant := s.sidTenant p, seq := x.seq,
    replay := x.replay, start := s.rank, chk := s.checkOf d p }

/-- The entries that entered at an offer's own first edge settle after its edge 3 and may preempt it (R111). -/
def State.preemptAll (s : State) (d : Nat) : State := forEach (s.dst d).heap (fun p s => s.preempt d p) s

/-- Stage 10 takes an entry: it leaves its heap and stands in its destination's offer register, its offer to be shown from edge
`ready` on (R91, R109). -/
def State.take10 (s : State) (d p ready : Nat) : State :=
  (s.modDst d fun y => { y with heap := y.heap.filter (· ≠ p), form := some (p, ready) }).modSrc p fun x =>
    { x with place := if x.st = .pending then .popped else x.place }

/-- An entry is offered with spec = 1, and its Pending source is Staged (R101, R109). -/
def State.offer (s : State) (d p : Nat) : State :=
  let o := s.offerOf d p
  let s := s.modSrc p fun x => if x.st = .pending then { x with st := .staged, place := .offer, since := s.rank } else x
  let s := s.modDst d fun y => { y with offer := some o, form := none, timer := none, retractAt := none }
  ((s.bumpTw 0x08 d 3).bumpTw 0x01 p 6).preemptAll d

/-- The held entry of a destination is shown again through stage 12, its confirm window restarted; what the delivery checker found of
it stands (R95, R112; log 95). -/
def State.reshow (s : State) (d : Nat) (o : Offer) : State :=
  let o := { o with start := s.rank, conf := none, beaten := false }
  (s.modDst d fun y => { y with parked := none, form := none, offer := some o, timer := none, retractAt := none }).preemptAll d

/-- The members other than `t` at which R110 would let a source's entry be offered (R120). -/
def State.others (s : State) (p t : Nat) : List Nat :=
  (s.eligibles (fld (s.route p) 4 10 % 64)).filter fun u =>
    decide (u ≠ t) && (s.dst u).offer.isNone && (s.dst u).c0.isNone && (s.dst u).parked.isNone && s.offerOk u (s.src p).key

/-- The member a group-routed entry with resel = 1 moves to from target `t`, if there is one (R120). -/
def State.reselectTo (s : State) (p t : Nat) : Option Nat :=
  let pol := fld (s.route p) 0 3
  if pol ≠ 0 ∧ bit (s.route p) 3 then s.choose p pol (fld (s.route p) 4 10 % 64) (s.others p t) else none

/-- A Pending entry without a place enters another target's heap through stage 6, its age kept (R120). -/
def State.moveEntry (s : State) (p t u : Nat) : State :=
  let pol := fld (s.route p) 0 3
  let g := 0x0D00 + 4 * (fld (s.route p) 4 10 % 64)
  let a := age (s.dst t).stamp (s.src p).key.stamp
  let s := onlyIf (decide (pol = 2)) (fun s => s.setReg g (setFld (s.reg g) 16 9 u)) s
  let s := s.modSrc p fun x =>
    { x with st := .pending, pendAt := if x.st = .pending then x.pendAt else s.rank, place := .wait6, since := s.rank, dst := u,
             key := { x.key with stamp := (s.dst u).stamp - BitVec.ofNat 24 a } }
  (s.countOver u).bump 0x0C10

/-- Whether a head waits only for the running level, or its target is not eligible (R120). -/
def State.heldBackAt (s : State) (t : Nat) (k : Key) : Bool :=
  !s.eligible t ||
  ((s.dst t).offer.isNone && (s.dst t).c0.isNone && decide (s.depth t < s.nestMax t) && !s.levelOk t k)

/-- Whether the present head is more urgent than a held entry (R112). -/
def State.heldBeaten (s : State) (d : Nat) (o : Offer) : Bool := match s.head d s.rank with
  | some p => moreUrgent (s.dst d).stamp (s.src p).key (s.src o.psn).key
  | none => false

/-- Stage 10 at a destination where no offer stands: the head is taken, for an offer three edges later; from the cycle after the
Class 0 CLAIM on a held entry is shown again at the next edge, or is reinstated for a more urgent head, which is offered two edges
later (R91, R93, R110, R112, R116). -/
def State.stage10 (s : State) (d : Nat) : State :=
  let x := s.dst d
  if x.form.isSome ∨ x.offer.isSome ∨ x.c0.isSome then s
  else match x.parked with
    | some o =>
      if s.offerOk d (s.src o.psn).key = false ∨ passed (x.claimAt.getD 0) 1 s.rank = false then s
      else if s.heldBeaten d o then
        let s := (s.modDst d fun y => { y with parked := none }).reinstate d o.psn
        match s.head d s.rank with
        | some p => s.take10 d p (s.rank + 2)
        | none => s
      else s.modDst d fun y => { y with form := some (o.psn, s.rank + 1) }
    | none => match s.head d s.rank with
      | some p => if s.offerOk d (s.src p).key then s.take10 d p (s.rank + 3) else s
      | none => s

/-- Stage 10 of every destination, as the edge ends; a block that does not serve takes none (R91, R291). -/
def State.stage10All (s : State) : State :=
  if s.serving then forEach (mKeys s.dsts) (fun d s => s.stage10 d) s else s

/-- Why a destination is selected for a source: its entry is at stage 3, it is a head that waits at a target, or the claim timer of
its offer at a target has expired. -/
inductive Sel where
  | route
  | head (t : Nat)
  | expired (t : Nat)
  deriving DecidableEq, Repr

/-- The heads that R110 holds back only for their targets' running level, or whose targets are not eligible (R120). -/
def State.heldHeads (s : State) : List (Nat × Sel) :=
  (mKeys s.dsts).filterMap fun d => match s.head d s.rank with
    | some p => if d < 512 ∧ s.heldBackAt d (s.src p).key then some (p, .head d) else none
    | none => none

/-- One selection of the edge: stage 3, or a re-selection; an entry whose claim timer expired and for which no member stands is
reinstated (R114, R117, R120). -/
def State.selectOne (s : State) (p : Nat) : Sel → State
  | .route => s.stage3 p
  | .head t => match s.reselectTo p t with
    | some u => (s.withdraw p).moveEntry p t u
    | none => s
  | .expired t =>
    if (s.src p).st = .pending ∧ (s.src p).place = .none then
      match s.reselectTo p t with
      | some u => s.moveEntry p t u
      | none => s.reinstate t p
    else s

/-- The selections of one edge, in ascending PSN order, all by the loads before the edge (R117, R118, R120). -/
def State.selections (s : State) : State :=
  let l := (s.atStage 3).map (fun p => (p, Sel.route)) ++ s.heldHeads ++ s.edge.moves.map fun x => (x.1, Sel.expired x.2)
  let s := { s with edge := { s.edge with moves := [] } }
  forEach (l.mergeSort fun a b => decide (a.1 ≤ b.1)) (fun x s => s.selectOne x.1 x.2) s

/-- Stage 12 at a destination: what stages 10 and 11 hold is shown, a held entry again or an entry for the first time (R104,
R112). -/
def State.stage12 (s : State) (d : Nat) : State :=
  let x := s.dst d
  match x.form with
  | some (p, ready) =>
    if s.rank < ready then s
    else match x.parked with
      | some o => if o.psn = p then s.reshow d o else s.offer d p
      | none => s.offer d p
  | none => s

/-- SPECULATIVE_OFFER (R91, R110). -/
def execSpeculativeOffer (d : Nat) (s : State) : Out :=
  done s (if d < 576 ∧ s.domStill 0 = false ∧ s.serving = true then s.stage12 d else s)

/-! ## CONFIRM_WINDOW_END (R94, R95, R114) -/

/-- A failed delivery check: the offer ends by RETRACT, the entry is discarded, and a source that its own state showed Pending
enters stage 1 again, its stamp kept where it is intact (R95; log 23). -/
def State.checkFailed (s : State) (d : Nat) (o : Offer) (reason : Nat) (intact : Bool) : State :=
  let s := (s.modDst d fun x => { x with offer := none, timer := none, retractAt := none, lostAt := some s.rank })
  let s := (s.bumpTw 0x08 d 6).bumpTw 0x01 o.psn 7
  let s := (s.bump 0x0810).setReg 0x0820 (wd (at_ d 0 10 + at_ reason 10 4 + 0x10000))
  let keep := if intact then { stamp := some (s.src o.psn).key.stamp : Kept } else {}
  let s := if o.chk ≠ 2 ∧ o.chk ≠ 5 then ((s.withdraw o.psn).modSrc o.psn fun x => { x with st := .pending, pendAt := s.rank }).enter o.psn keep
    else s
  s.fault 0x05 fnDevice

/-- Whether the final comparison of edge 3 finds a more urgent head than the offered entry (R94). -/
def State.isBeaten (s : State) (d : Nat) (o : Offer) : Bool := match s.head d (o.start + 3) with
  | some p => moreUrgent (s.dst d).stamp (s.src p).key (s.src o.psn).key
  | none => false

/-- The final comparisons that fall at the present edge (R94). -/
def State.finalCompare (s : State) : State :=
  forEach ((s.dsts.filter fun x => match x.2.offer with
    | some o => decide (o.start + 3 = s.rank)
    | none => false).map Prod.fst) (fun d s =>
      s.modDst d fun y => { y with offer := y.offer.map fun o => { o with beaten := s.isBeaten d o } }) s

/-- The decision of an offer's edge 6 (R94). The claim timer runs only where DSP_TCFG.climit is not 0 at the CONFIRM: written later,
it starts none for that offer (DESIGN CHOICE, log 118). -/
def State.decide6 (s : State) (d : Nat) (ecc : OfferEcc) : State :=
  match (s.dst d).offer with
  | some o =>
    if o.conf.isSome ∨ s.rank < o.start + 6 then s
    else if ecc ≠ .clean then s.checkFailed d o 1 (decide (ecc ≠ .stamp))
    else if o.chk ≠ 0 then s.checkFailed d o o.chk true
    else if o.beaten then (s.retract d).bump 0x0814
    else s.modDst d fun x =>
        { x with offer := some { o with conf := some s.rank }, timer := if fld (s.tcfg d) 8 12 = 0 then none else some s.rank }
  | none => s

/-- CONFIRM_WINDOW_END (R94). -/
def execConfirmWindowEnd (d : Nat) (ecc : OfferEcc) (s : State) : Out := done s (if d < 576 then s.decide6 d ecc else s)

/-! ## CLAIM and COMPLETE (R105, R107, R108) -/

/-- A protocol error: counted, shown, and reported when its reason is marked (the table "Target protocol reasons"). -/
def State.proto (s : State) (t reason : Nat) : State :=
  let s := (s.bumpTw 0x08 t 8).setReg 0x0C20 (wd (at_ t 0 10 + at_ reason 10 4 + 0x10000))
  if reason = 2 ∨ reason = 3 then s else (s.bump 0x0C1C).fault 0x11 (fnTarget t)

/-- An accepted CLAIM of an ordinary offer (R101, R105, R113). -/
def State.claimOffer (s : State) (t p : Nat) : State :=
  (s.modDst t fun x => { x with offer := none, timer := none, retractAt := none, claimAt := some s.rank }).activate t p

/-- An accepted CLAIM of a Class 0 offer; one that a recovery discarded is at once discarded as Active (R363, R364). -/
def State.claimC0 (s : State) (t p : Nat) : State :=
  let doomed := (s.src p).doom
  let s := (s.modDst t fun x => { x with c0 := none, timer := none, claimAt := some s.rank }).activate t p
  if doomed then
    ((s.modSrc p fun y => { y with st := .completing, since := s.rank, flushed := true, kept := true, doom := false }).bumpTw 0x01 p 9).freeFlushed p
  else s

/-- A target's CLAIM in the present cycle (R105, the table "Target protocol reasons"). One in the first cycle of a spec = 1 offer is
CLAIM_EARLY, as CONFIRM is 0 (DESIGN CHOICE, log 96). -/
def State.claimAt (s : State) (t : Nat) : State :=
  let x := s.dst t
  match x.c0, x.offer with
  | some o, _ => if o.start < s.rank then s.claimC0 t o.psn else s.proto t 3
  | none, some o => if o.conf.isSome then s.claimOffer t o.psn else s.proto t 2
  | none, none => s.proto t (if x.lostAt = some s.rank then 3 else 1)

/-- CLAIM (R105). -/
def execClaim (t : Nat) (s : State) : Out :=
  done s (if t < 512 ∧ s.dstUp t = true ∧ s.domStill 0 = false then s.claimAt t else s)

/-- An accepted COMPLETE: the outer becomes innermost and the instance is Completing, or leaves when it was discarded while
Active (R101, R107, R363). -/
def State.completeInner (s : State) (t p : Nat) (rest : List Nat) : State :=
  let s := (s.setNest t rest).bumpTw 0x08 t 5
  if (s.src p).kept then s.leave p else s.completing p false

/-- An accepted COMPLETE in the cycle in which a CLAIM of `p` was accepted: it ends the instance under it, and `p` takes that one's
outer (R107). -/
def State.completeUnder (s : State) (t p q : Nat) (rest : List Nat) : State :=
  let o := (s.src q).outer
  let s := (s.modDst t fun x => { x with nest := p :: rest }).bumpTw 0x08 t 5
  let s := s.modSrc p fun x => { x with outer := o }
  if (s.src q).kept then s.leave q else s.completing q false

/-- A target's COMPLETE in the present cycle: of a CLAIM and a COMPLETE of one cycle the completion goes first (R107). -/
def State.completeAt (s : State) (t : Nat) (cseq : BitVec 16) : State :=
  match (s.dst t).nest, decide ((s.dst t).claimAt = some s.rank) with
  | [], _ => s.proto t 4
  | [_], true => s.proto t 4
  | p :: q :: rest, true => if (s.src q).seq = cseq then s.completeUnder t p q rest else s.proto t 5
  | p :: rest, false => if (s.src p).seq = cseq then s.completeInner t p rest else s.proto t 5

/-- COMPLETE (R107). -/
def execComplete (t : Nat) (cseq : BitVec 16) (s : State) : Out :=
  done s (if t < 512 ∧ s.dstUp t = true ∧ s.domStill 0 = false then s.completeAt t cseq else s)

/-! ## CLAIM_TIMER_EXPIRY (R114) -/

/-- The expiry is counted and reported: to the target's ladder, or to the device's for a pool. -/
def State.claimBite (s : State) (d : Nat) : State :=
  (s.bumpTw 0x08 d 7).bite 0x0C (if d < 512 then fnTarget d else fnDevice)

/-- Whether a source's routing asks for re-selection (R120). -/
def State.resel (s : State) (p : Nat) : Bool := decide (fld (s.route p) 0 3 ≠ 0) && bit (s.route p) 3

/-- The effect of CLAIM_TIMER_EXPIRY: RETRACT and reinstatement, or re-selection as the edge ends; a Class 0 NOTIFY stands (R114,
R118, R120). -/
def State.claimExpire (s : State) (d : Nat) : State :=
  let x := s.dst d
  let s := s.modDst d fun y => { y with timer := none }
  match x.c0, x.offer with
  | some _, _ => s.claimBite d
  | none, some o =>
    let s := if d < 512 ∧ s.resel o.psn then
        let s := s.modDst d fun y => { y with offer := none, retractAt := none, lostAt := some s.rank }
        let s := (s.bumpTw 0x08 d 6).bumpTw 0x01 o.psn 7
        let s := s.modSrc o.psn fun x => { x with st := .pending, place := .none, since := s.rank, pendAt := s.rank }
        { s with edge := { s.edge with moves := s.edge.moves ++ [(o.psn, d)] } }
      else s.retract d
    s.claimBite d
  | none, none => s

/-- The claim timers that have expired at pools act as the edge ends, unless an engine took the offer (R116). -/
def State.poolExpiries (s : State) : State :=
  forEach ((s.dsts.filter fun x => x.2.expired).map Prod.fst) (fun d s =>
    (s.modDst d fun y => { y with expired := false }).claimExpire d) s

/-- CLAIM_TIMER_EXPIRY (R114). At a pool the expiry acts as the edge ends (R116). -/
def execClaimTimerExpiry (d : Nat) (s : State) : Out :=
  done s (match (s.dst d).timer with
    | some t =>
      let c := fld (s.tcfg d) 8 12
      if c = 0 ∨ s.rank < t + 64 * c then s
      else if d < 512 then s.claimExpire d
      else if d < 576 then s.modDst d fun y => { y with expired := true }
      else s
    | none => s)

/-! ## TARGET_DOWN, TARGET_UP, COMPLETION_WORK_DONE -/

/-- The effect of TARGET_DOWN (R115). -/
def State.targetDown (s : State) (t : Nat) : State :=
  let was := s.dstUp t
  let s := s.modDst t fun x => { x with upPin := false }
  onlyIf (was && s.domOn 0) (·.targetLost t) s

/-- TARGET_DOWN (R115). -/
def execTargetDown (t : Nat) (s : State) : Out := done s (if t < 512 then s.targetDown t else s)

/-- TARGET_UP (R115). -/
def execTargetUp (t : Nat) (s : State) : Out := done s (if t < 512 then s.modDst t fun x => { x with upPin := true } else s)

/-- COMPLETION_WORK_DONE (R102). -/
def execCompletionWorkDone (psn : Nat) (s : State) : Out := done s (if s.domStill 0 = false then s.tryLeave psn else s)

end Sys2Proof.Machine
end

