-- ==== Sys2Proof/Machine/Bases.lean ====
section
/-! DEFINITION. Phase bases: the extrapolation of every edge and the meanings of the bases' commands (07). -/

namespace Sys2Proof.Machine

/-! ## What a base's registers say -/

/-- Register `r` of base `n`. -/
def State.bReg (s : State) (n r : Nat) : Word := s.reg (0x1000 + 0x40 * n + r)
/-- Register `r` of base `n` replaced. -/
def State.setBReg (s : State) (n r : Nat) (v : Word) : State := s.setReg (0x1000 + 0x40 * n + r) v
/-- PHS_CFG of base `n`. -/
def State.bcfg (s : State) (n : Nat) : Word := s.bReg n 0
/-- PHS_CFG.type. -/
def State.btype (s : State) (n : Nat) : Nat := fld (s.bcfg n) 1 2
/-- The 64 bits of an internal angle above its fraction (R126). -/
def angTu (a : Angle) : W64 := BitVec.ofNat 64 (a.toNat / 2 ^ 16)
/-- An internal angle moved by a signed number of 2^-16 tu. -/
def angAdd (a : Angle) (x : Int) : Angle := a + BitVec.ofInt 80 x
/-- Whether a base state follows extrapolation (R131). -/
def BaseSt.live : BaseSt → Bool
  | .unref | .run => true
  | _ => false

/-! ## A_p and MOVE (R131, R132) -/

/-- A_p follows A_i by the direction; a change in Run is a MOVE (R132, R151). -/
def State.publish (s : State) (n : Nat) : State :=
  let b := s.base n
  let new := angTu b.ai
  let d := (new - b.ap).toInt
  let take : Bool := match s.bdir n with
    | .still => true
    | .fwd => decide (0 < d)
    | .rev => decide (d < 0)
  if take = true then
    let s := s.modBase n fun x => { x with ap := new, hback := false }
    if b.st = .run ∧ new ≠ b.ap then s.moved n b.ap new else s
  else s.modBase n fun x => { x with hback := decide (d ≠ 0) }

/-- The extrapolation of an edge at which no valid sample is taken in (R131). -/
def State.extrapolate (s : State) (n : Nat) : State :=
  let b := s.base n
  let go : Bool := if s.isTime n then b.st == .run else b.st.live
  let step : Int := if s.isTime n then ((s.bReg n 8).toNat : Int) else b.vel.toInt
  if go then s.modBase n fun x => { x with ai := angAdd x.ai step } else s

/-! ## States (R135, R142) -/

/-- What the work of one edge of a base has raised so far. -/
structure BaseEdge where
  sig : Sigs := {}
  setAp : Bool := false
  deriving DecidableEq, Repr

/-- The base leaves Held: A_p takes A_i and DISCONT is signalled; it enters Unref while a reference is wanted (R135). -/
def State.leaveHeld (s : State) (n : Nat) (g : Sigs) : State × Sigs :=
  let wait := decide (s.btype n = 0) && bit (s.bcfg n) 3 && !(s.base n).refd
  (s.modBase n fun b =>
    { b with st := if wait then .unref else .run, ap := angTu b.ai, aidx := b.ai, hback := false },
   { g with discont := true, run := g.run || !wait })

/-- PHS_CFG takes a value: a reserved type leaves it unchanged; a change of en or type disables and re-enables the base
(R125, R135). Before Open the word only stands (R250). -/
def State.setPhsCfg (s : State) (n : Nat) (v : Word) : State :=
  let old := s.bcfg n
  if fld v 1 2 = 3 then s
  else
    let s := s.setBReg n 0 v
    if fld old 0 3 ≠ fld v 0 3 ∧ s.ldr.phase = .opened then s.enableBase n else s

/-! ## FEED_SAMPLE (R127-R141, R143) -/

/-- The velocity a sample gives (R129). -/
def State.sampleVel (s : State) (n : Nat) (spd : Int) (flg : BitVec 8) : Int :=
  if flg.getLsbD 1 ∨ flg.getLsbD 2 then 0 else satInt 32 ((spd * ((s.bReg n 4).toNat : Int)) / 2 ^ 16)

/-- The sample is taken into A_i and the velocity (R129). -/
def State.takeIn (s : State) (n : Nat) (ang : Word) (spd : Int) (flg : BitVec 8) : State :=
  let neg := decide (s.btype n = 1) && decide (spd < 0)
  let s := onlyIf neg (·.bumpTw 0x09 n 1) s
  let s := onlyIf (flg.getLsbD 2) (·.bumpTw 0x09 n 5) (s.bumpTw 0x09 n 0)
  let v := s.sampleVel n (if neg then 0 else spd) flg
  let f : Int := (((ang + s.bReg n 0x3C).toNat : Int) * 2 ^ 16) + (3 + (fld (s.bcfg n) 8 8 : Int)) * v
  let delta := (BitVec.ofInt 48 f - (s.base n).ai.setWidth 48).toInt
  s.modBase n fun b => { b with ai := angAdd b.ai delta, vel := BitVec.ofInt 32 v, lastValid := s.rank, lastAng := some ang }

/-- The direction a valid sample sets; a reversal is signalled and counted (R134). -/
def State.setDir (s : State) (n : Nat) (g : BaseEdge) : State × BaseEdge :=
  let b := s.base n
  let vmin : Int := (fld (s.bReg n 0x38) 0 31 : Int)
  let d : Dir := if vmin < b.vel.toInt then .fwd else if b.vel.toInt < -vmin then .rev else .still
  let rev := decide (d = .rev)
  if d ≠ .still ∧ rev ≠ b.lastRev then
    ((s.modBase n fun b => { b with dir := d, lastRev := rev }).bumpTw 0x09 n 4,
     { g with sig := { g.sig with reverse := true }, setAp := true })
  else (s.modBase n fun b => { b with dir := d }, g)

/-- The expected index angle (R137). -/
def State.indexAt (s : State) (n : Nat) : Word :=
  if (s.base n).lastRev then s.bReg n 0x10 + s.bReg n 0x18 else s.bReg n 0x10

/-- A deviation is subtracted from PHS_OFS and A_i (R138, R141). -/
def State.rephase (s : State) (n : Nat) (dev : Word) : State :=
  (s.setBReg n 0x3C (s.bReg n 0x3C - dev)).modBase n fun b => { b with ai := angAdd b.ai (-(dev.toInt * 2 ^ 16)) }

/-- What every off-count index does, whatever the policy (R139, R313). -/
def State.indexSlip (s : State) (n : Nat) (missing : Bool) : State :=
  let s := ((s.bumpTw 0x09 n 8).house 0x5A0B)
  let ai := angTu (s.base n).ai
  s.record 0x07 n (b2n missing) [s.bReg n 0x30, wd (fld (s.bcfg n) 4 2), lo32 ai, hi32 ai]

/-- The policy of an off-count index outside Held (R139, R140): re-phase, Hold, or count only. -/
def State.indexPolicy (s : State) (n : Nat) (dev : Option Word) (g : BaseEdge) : State × BaseEdge :=
  let pol := fld (s.bcfg n) 4 2
  let g := { g with sig := { g.sig with squash := true } }
  if (s.base n).st = .held then (s, g)
  else if pol = 1 then
    (s.modBase n fun b => { b with st := .held, ihold := true, hback := false }, { g with sig := { g.sig with held := true } })
  else if pol = 2 then (s, g)
  else match dev with
    | some d => (s.rephase n d, { g with sig := { g.sig with discont := true }, setAp := true })
    | none => (s, g)

/-- The index check of a valid sample with idx = 1 (R137-R139, R141; log 24: every index checked sets A_idx). PHS_LAST_IDX takes the
deviation of a reference index too, which no check judges (DESIGN CHOICE, log 120). -/
def State.checkIndex (s : State) (n : Nat) (iang : Word) (g : BaseEdge) : State × BaseEdge :=
  let dev := iang + s.bReg n 0x3C - s.indexAt n
  if (s.base n).st = .unref then
    let s := (s.setBReg n 0x30 dev).rephase n dev
    (s.modBase n fun b => { b with st := .run, refd := true, aidx := b.ai },
     { g with sig := { g.sig with discont := true, run := true }, setAp := true })
  else if bit (s.bcfg n) 6 then
    let s := s.setBReg n 0x30 dev
    let (s, g) :=
      if dev.toInt.natAbs ≤ fld (s.bReg n 0x14) 0 31 then ((s.rephase n dev).bumpTw 0x09 n 7, g)
      else (s.indexSlip n false).indexPolicy n (some dev) g
    (s.modBase n fun b => { b with aidx := b.ai }, g)
  else (s, g)

/-- Whether a sample's step of A_i is one under R133. -/
def State.jumped (s : State) (n : Nat) (a0 : Angle) (v0 : Int) : Bool :=
  let j : Int := (fld (s.bReg n 0x0C) 0 31 : Int) * 2 ^ 16
  let a := (s.base n).ai
  let ch := (a - a0).toInt
  let ex := (a - angAdd a0 v0).toInt
  match (s.base n).dir with
  | .fwd => decide (ch < -j) || decide (j < ex)
  | .rev => decide (j < ch) || decide (ex < -j)
  | .still => decide (j < ex.natAbs)

/-- A valid sample: it is taken in, sets the direction, has its index checked, and ends a hold for want of a sample (R129, R133-R135,
R137). A step of a sample in Held, or of one that enters or leaves Held, is none of R133 (DESIGN CHOICE, log 119). -/
def State.validSample (s : State) (n : Nat) (x : FeedSample) : State × BaseEdge :=
  let b0 := s.base n
  let s := s.takeIn n x.ang x.spd.toInt x.flg
  let (s, g) := s.setDir n {}
  let (s, g) := if s.btype n = 0 ∧ x.flg.getLsbD 3 then s.checkIndex n x.iang g else (s, g)
  let (s, g) :=
    if b0.st.live && (s.base n).st.live && s.jumped n b0.ai b0.vel.toInt then
      (s.bumpTw 0x09 n 6, { g with sig := { g.sig with discont := true }, setAp := true })
    else (s, g)
  let s := s.modBase n fun b => { b with fheld := false }
  if b0.st = .held ∧ (s.base n).ihold = false then
    let (s, sig) := s.leaveHeld n g.sig
    (s, { g with sig := sig, setAp := true })
  else (s, g)

/-- An acceptance edge: the sequence check, then the sample when it is valid, else the extrapolation (R127, R128, R131, R143). -/
def State.accepted (s : State) (n : Nat) (x : FeedSample) : State × BaseEdge :=
  let q : BitVec 4 := (x.flg >>> 4).setWidth 4
  let gap := match (s.base n).fseq with
    | some p => (q - p - 1).toNat
    | none => 0
  let s := (s.bumpTwN 0x09 n 2 gap).setBReg n 0x34 (x.flg.setWidth 32)
  let s := s.modBase n fun b => { b with fseq := some q }
  if x.flg.getLsbD 0 then s.validSample n x else ((s.bumpTw 0x09 n 1).extrapolate n, {})

/-! ## Feed loss and missing index (R136, R140) -/

/-- Whether a base has moved more than a turn and tol since its last index (R140). -/
def State.indexGone (s : State) (n : Nat) : Bool :=
  decide (s.btype n = 0) && bit (s.bcfg n) 6 && (s.base n).st.live &&
  decide (2 ^ 32 + fld (s.bReg n 0x14) 0 31 < (angTu (s.base n).ai - angTu (s.base n).aidx).toInt.natAbs)

/-- A missing index, an off-count one without a deviation (R139, R140). -/
def State.missingIndex (s : State) (n : Nat) (g : BaseEdge) : State × BaseEdge :=
  let s := (s.setBReg n 0x30 0x80000000).bumpTw 0x09 n 9
  let (s, g) := (s.indexSlip n true).indexPolicy n none g
  (s.modBase n fun b => { b with aidx := b.ai }, g)

/-- Whether a base's feed is lost (R136). -/
def State.feedGone (s : State) (n : Nat) : Bool :=
  !s.isTime n && (s.base n).st.live && decide (fld (s.bcfg n) 16 12 ≠ 0) &&
  decide ((s.base n).lastValid + 64 * fld (s.bcfg n) 16 12 < s.rank)

/-- A feed loss: Held with fheld = 1, counted and recorded; A_p is frozen (R135, R136). -/
def State.feedLoss (s : State) (n : Nat) (g : BaseEdge) : State × BaseEdge :=
  let p := (s.base n).ap
  let s := s.modBase n fun b => { b with st := .held, fheld := true, hback := false }
  ((s.bumpTw 0x09 n 3).record 0x06 n 0 [lo32 p, hi32 p], { g with sig := { g.sig with held := true } })

/-! ## The work of an edge (R143) -/

/-- The end of a base's edge: A_p is set to A_i by an event that names DISCONT or REVERSE, or follows it by R132, or is frozen in Held;
the signals stand for the scheduler (R132, R133, R143). -/
def State.endEdge (s : State) (n : Nat) (g : BaseEdge) : State :=
  let s := if (s.base n).st.live then
      (if g.setAp then s.modBase n fun b => { b with ap := angTu b.ai, hback := false } else s.publish n)
    else s
  s.raiseSig n g.sig

/-- What comes to a base at the present edge. -/
def State.phsEdge (s : State) (n : Nat) : PhsEdge := mGet (fun _ => {}) s.edge.phs n
/-- The same, changed by `f`. -/
def State.modPhs (s : State) (n : Nat) (f : PhsEdge → PhsEdge) : State :=
  { s with edge := { s.edge with phs := mSet (fun _ => {}) s.edge.phs n (f (s.phsEdge n)) } }

/-- The work of a base at an edge, after the commands of PHS_CMD: the sample or the extrapolation, the missing index, the feed timeout,
A_p and the signals (R131-R143). -/
def State.baseWork (s : State) (n : Nat) : State :=
  if (s.base n).st = .disabled ∨ s.domStill 1 then s
  else
    let e := s.phsEdge n
    let (s, g) := match e.sample with
      | some x => s.accepted n x
      | none => (s.extrapolate n, {})
    let (s, g) := if e.noIndex && s.indexGone n then s.missingIndex n g else (s, g)
    let (s, g) := if e.loss && s.feedGone n then s.feedLoss n g else (s, g)
    s.endEdge n g

/-! ## FEED_SAMPLE, MISSING_INDEX, FEED_LOSS -/

/-- FEED_SAMPLE: the base accepts the sample at this edge, one at most; it is taken in as the edge ends, after the edge's commands (R127,
R129, R143). -/
def execFeedSample (n : Nat) (ang spd iang : Word) (flg : BitVec 8) (s : State) : Out :=
  done s (if n < 16 ∧ (s.base n).st ≠ .disabled ∧ s.isTime n = false ∧ s.domStill 1 = false then
      s.modPhs n fun e => { e with sample := e.sample.or (some { ang := ang, spd := spd, iang := iang, flg := flg }) }
    else s)

/-- MISSING_INDEX: judged as the edge ends, after its sample (R140, R143). -/
def execMissingIndex (n : Nat) (s : State) : Out :=
  done s (if n < 16 ∧ s.domStill 1 = false then s.modPhs n fun e => { e with noIndex := true } else s)

/-- FEED_LOSS: judged as the edge ends, after its sample (R136, R143). -/
def execFeedLoss (n : Nat) (s : State) : Out :=
  done s (if n < 16 ∧ s.domStill 1 = false then s.modPhs n fun e => { e with loss := true } else s)

/-! ## The commands of PHS_CMD (R142) -/

/-- The effect of PHS_CMD zero (R142; log 24: A_idx is set to 0 with the angles). The sample or the extrapolation of this edge follows
the command (R143). -/
def State.zeroBase (s : State) (n : Nat) : State :=
  if (s.base n).st = .disabled then s
  else
    let ofs := match (s.base n).lastAng with
      | some a => -a
      | none => 0
    let s := if s.isTime n then s else s.setBReg n 0x3C ofs
    (s.modBase n fun b => { b with ai := 0, ap := 0, aidx := 0, hback := false }).raiseSig n { discont := true }

/-- The effect of PHS_CMD release (R135, R142). -/
def State.releaseBase (s : State) (n : Nat) : State :=
  let b := s.base n
  if b.st = .held ∧ b.ihold then
    let s := s.modBase n fun b => { b with ihold := false }
    if b.fheld then s
    else
      let (s, sig) := s.leaveHeld n {}
      s.raiseSig n sig
  else s

end Sys2Proof.Machine
end

