-- ==== Sys2Proof/Machine/Message.lean ====
section
/-! DEFINITION. Message intake: doorbells and completion messages (04). -/

namespace Sys2Proof.Machine

/-- Page of a doorbell (R63). -/
def Bell.page (b : Bell) : Nat := b.addr.toNat / 4096
/-- Offset within its page. -/
def Bell.off (b : Bell) : Nat := b.addr.toNat % 4096
/-- Whether it is a DOORBELL_NP. -/
def Bell.np (b : Bell) : Bool := decide (b.off = 8)
/-- The vsn field of the message word (R64). -/
def Bell.vsn (b : Bell) : Nat := nfld b.data.toNat 32 15
/-- The cmp bit. -/
def Bell.cmp (b : Bell) : Bool := decide (nfld b.data.toNat 48 1 = 1)
/-- The cookie. -/
def Bell.cookie (b : Bell) : BitVec 8 := BitVec.ofNat 8 (nfld b.data.toNat 56 8)
/-- The payload the completion of a refusal returns. -/
def Bell.payload (b : Bell) : Word := if b.np then 0 else lo32 b.data
/-- Whether it arrived on the steward page. -/
def Bell.stw (b : Bell) : Bool := decide (b.page = 256)

/-- MSG_LAST_REF records a refusal (R69). -/
def State.lastRef (s : State) (b : Bell) (sel status : Nat) : State :=
  s.setReg 0x0608 (wd (at_ sel 0 15 + at_ status 15 4 + at_ b.port 19 1
    + at_ (if b.stw then 0xFF else b.page) 20 8 + at_ (b2n b.stw) 28 1 + at_ 1 29 1))

/-- The completion of a refused doorbell (R74, R75). -/
def State.refuseC (s : State) (b : Bell) (status : Nat) : State :=
  s.sendC b.port { dest := b.srcid, data := cword b.payload b.vsn b.np status b.cookie }

/-- An out-of-mapping access of tenant `v` is counted and shown (R230). -/
def State.noteMap (s : State) (v kind sel : Nat) : State :=
  (s.bumpTw 0x14 v 12).bumpTw64 0x1A v 6 |>.setReg 0x200C (wd (at_ sel 0 16 + at_ kind 16 4 + at_ v 20 8 + at_ 1 28 1))

/-- A refusal at stage 6, 7 or 8: counted, shown, raised, and returned when a completion is to be sent (R65, R69, R74). -/
def State.refuseMsg (s : State) (b : Bell) (m word status : Nat) (send : Bool) : State :=
  let s := (s.bumpTw 0x03 m word).lastRef b m status
  let s := onlyIf (bit (s.reg 0x0600) 2) (·.house 0x5A0A) s
  onlyIf send (·.refuseC b status) s

/-- Stages 6 to 9 at the check edge (R65, R67, R70, R72, R74). -/
def State.checkMsg (s : State) (b : Bell) (m : Nat) : State :=
  let p := psnMsg + m
  let cfg := s.tw 0x03 m 0
  let cm := fld cfg 5 2
  let send := decide (cm = 2) || (decide (cm ≠ 1) && b.cmp)
  let need := !b.np || send
  let v := b.page
  let beyond := !b.stw && decide (fld (s.tw 0x04 v 0) 0 17 ≤ s.tenUsed v)
  if bit cfg 0 = false then s.refuseMsg b m 4 3 send
  else if s.qdepth m ≤ (s.src p).q.length then s.refuseMsg b m 5 1 send
  else if need && (beyond || decide (65536 ≤ s.poolUsed)) then
    (onlyIf beyond (·.bumpTw 0x04 v 2) s).refuseMsg b m 6 2 send
  else
    let e := { payload := b.payload, srcid := b.srcid, port := b.port, cmp := b.cmp, np := b.np, stw := b.stw,
               cookie := b.cookie, send := send, quota := if b.stw then none else some v : PoolEntry }
    (s.bumpTw 0x03 m 3).raise p { payload := b.payload, entry := if need then some e else none }

/-- Where stage 4 takes a doorbell: a message source, or none (R65, R232). -/
def State.msgTarget (s : State) (b : Bell) : Option Nat :=
  if b.stw then (if b.vsn < 16384 then some b.vsn else none)
  else if s.tenOn b.page then
    match s.mapSlot b.page b.vsn with
    | some p => if isMsg p then some (p - psnMsg) else none
    | none => none
  else none

/-- Whether stages 2 and 3 let a doorbell pass: its port is enabled, its page, offset and alignment are right (R63, R65). -/
def Bell.placed (b : Bell) : Bool := decide (b.addr.toNat % 8 = 0 ∧ b.page < 257 ∧ (b.off = 0 ∨ b.off = 8))
/-- Whether stage 2 lets the doorbells of a port pass; a block that does not serve has its ports off (R65, R250, R284). -/
def State.portOn (s : State) (port : Nat) : Bool := bit (s.reg 0x0600) port && s.serving

/-- The message source stages 2 to 4 take a doorbell to, none when one of them refuses it (R65). -/
def State.bellTo (s : State) (b : Bell) : Option Nat := if s.portOn b.port && b.placed then s.msgTarget b else none

/-- A refusal at stage 2, 3 or 4: counted, and at stage 4 shown and returned (R65, R69, R74, R230). -/
def State.refuseBell (s : State) (b : Bell) : State :=
  let o := 0x20 * b.port
  if s.portOn b.port = false then s.bump (0x0618 + o)
  else if b.placed = false then s.bump (0x0614 + o)
  else
    let s := if b.stw then s.bump (0x0614 + o) else s.noteMap b.page 4 b.vsn
    let s := s.lastRef b b.vsn 4
    onlyIf b.cmp (·.refuseC b 4) s

/-- The doorbells in a port's entry FIFO. -/
def State.fifoLen (s : State) (port : Nat) : Nat := (s.fifo.filter fun x => decide (x.2.port = port)).length

/-- A doorbell takes its place among the waiting ones: by FAB_CLK edge, MSG0 before MSG1 (R73). -/
def insertBell (t : Nat) (b : Bell) : List (Nat × Bell) → List (Nat × Bell)
  | [] => [(t, b)]
  | x :: l => if t < x.1 ∨ t = x.1 ∧ b.port < x.2.port then (t, b) :: x :: l else x :: insertBell t b l

/-- The FAB_CLK edge of a port's transfer: the present one, or the next where the port has transferred at it (R62; log 112). -/
def State.fabEdge (s : State) (port : Nat) : State :=
  if s.edge.ports.contains port then { s with fab := s.fab + 1, edge := { s.edge with ports := [port] } }
  else { s with edge := { s.edge with ports := port :: s.edge.ports } }

/-- Stage 1: a doorbell is presented: lost uncounted while D_CORE is not On, kept waiting and counted while its port's FIFO is full,
else transferred (R61, R62, R65). -/
def State.ring (s : State) (b : Bell) : State :=
  if s.domStill 0 then s
  else if 16 ≤ s.fifoLen b.port then s.bump (0x061C + 0x20 * b.port)
  else
    let s := (s.bump (0x0610 + 0x20 * b.port)).fabEdge b.port
    { s with fifo := insertBell s.fab b s.fifo }

/-- Stages 2 to 4 of the doorbells transferred at this edge, in merge order, with every mapping of the edge in force (R65, R240). -/
def State.stages24 (s : State) : State :=
  let new := s.fifo.filter fun x => x.2.src.isNone
  let out := (new.map Prod.snd).filter fun b => (s.bellTo b).isNone
  let fifo := s.fifo.filterMap fun x => if x.2.src.isSome then some x else (s.bellTo x.2).map fun m => (x.1, { x.2 with src := some m })
  forEach out (fun b s => s.refuseBell b) { s with fifo := fifo }

/-- Stage 5 passes one doorbell at an edge, and stages 6 to 9 check it with every update of the edge applied (R62, R65, R67). -/
def State.mergePass (s : State) : State :=
  match s.fifo with
  | (_, b) :: rest => match b.src with
    | some m => { s with fifo := rest }.checkMsg b m
    | none => s
  | [] => s

/-- The message stages of an edge, as it ends (R65, R67). -/
def State.msgWork (s : State) : State := s.stages24.mergePass

/-- DOORBELL (R65). -/
def execDoorbell (port : Nat) (addr : BitVec 21) (data : W64) (srcid : BitVec 12) (s : State) : Out :=
  done s (if port < 2 then s.ring { port := port, addr := addr, data := data, srcid := srcid } else s)

/-- DOORBELL_NP (R65). -/
def execDoorbellNp (port : Nat) (addr : BitVec 21) (data : W64) (srcid : BitVec 12) (s : State) : Out :=
  done s (if port < 2 then s.ring { port := port, addr := addr, data := data, srcid := srcid } else s)

/-- The head of a return queue transfers (R61, R75). -/
def State.sendHead (s : State) (port : Nat) : State :=
  match s.rqOf port with
  | m :: rest =>
    ({ s with rq := mSet (fun _ => []) s.rq port rest, lastMsg := some (port, m) }).bump (0x0620 + 0x20 * port)
  | [] => s

/-- COMPLETION_MESSAGE_TRANSFER (R75). -/
def execCompletionMessageTransfer (port : Nat) (ready : Bool) (s : State) : Out :=
  done s (if port < 2 ∧ ready = true ∧ s.domStill 0 = false then s.sendHead port else s)

end Sys2Proof.Machine
end

