-- ==== Sys2Proof/Machine/Contexts.lean ====
section
/-! DEFINITION. Event contexts: the sweep's launches and releases, the rebuild, the hold limit, the context commands and
the commits of a context's words (08). -/

namespace Sys2Proof.Machine

/-! ## The sweep (R151-R155) -/

/-- Whether the sweep of base `n` takes entries: the base is in Run and does not rebuild (R165, R166). -/
def State.sweeps (s : State) (n : Nat) : Bool :=
  (s.base n).st == .run && (s.base n).rebuild.isNone && !s.domStill 1

/-- Whether an entry taken at `c` may act now: its action comes at the edge after it is taken (R153). -/
def State.ripe (s : State) (c : Option Nat) : Bool := match c with
  | some e => decide (e + 1 ≤ s.rank)
  | none => false

/-- Whether an entry was crossed at an earlier edge: it is taken at the next at the earliest (R153). -/
def State.before (s : State) (c : Option Nat) : Bool := match c with
  | some e => decide (e < s.rank)
  | none => false

/-- The order of the sweep: the edge, then how far past its angle A_p has come, then the number (R152). -/
structure SweepKey where
  edge : Nat
  past : Int
  num : Nat
  deriving DecidableEq, Repr

/-- Whether one crossed entry is taken ahead of another. -/
def SweepKey.before (a b : SweepKey) : Bool :=
  decide (a.edge < b.edge ∨ a.edge = b.edge ∧ (b.past < a.past ∨ a.past = b.past ∧ a.num < b.num))

/-- The first of a list by the sweep's order. -/
def firstSwept {α : Type} (key : α → SweepKey) : List α → Option α
  | [] => none
  | x :: t => match firstSwept key t with
    | none => some x
    | some y => if (key y).before (key x) then some y else some x

/-- The wheel slot of an angle (R151). -/
def slotOf (a : W64) : Nat := fld (lo32 a) 22 10

/-- Slots from `a` to `b` in a direction. -/
def slotGap (d : Dir) (a b : Nat) : Nat := if d = .rev then (a + 1024 - b) % 1024 else (b + 1024 - a) % 1024

/-- The direction the pointer of base `n` travels in: the base's, or the shorter way while it is still (R151, R152). -/
def State.sweepDir (s : State) (n : Nat) : Dir := match s.bdir n with
  | .still => if slotGap .fwd (s.base n).slot (slotOf (s.base n).ap) < 512 then .fwd else .rev
  | d => d

/-- A crossed entry the sweep may take: `id` names a release's occurrence. -/
structure Swept where
  key : SweepKey
  ctx : Nat
  ang : W64
  id : Option Nat
  deriving DecidableEq, Repr

/-- The crossed entries of base `n` in the slots up to its pointer, which is `rest` slots short of A_p's (R152). -/
def State.sweepable (s : State) (n rest : Nat) : List Swept :=
  let d := s.sweepDir n
  let ap := (s.base n).ap
  let there := fun (a : W64) => decide (rest ≤ slotGap d (slotOf a) (slotOf ap))
  ((s.occs.map Prod.snd).filter fun o =>
      decide (s.cbase o.ctx = n) && o.entry && s.before o.crossed && o.taken.isNone && there o.tgt).map (fun o =>
    { key := { edge := 0, past := -(dist d ap o.tgt), num := 2 * o.ctx }, ctx := o.ctx, ang := o.tgt, id := some o.id })
  ++ (s.ctxs.filter fun x => decide (s.cbase x.1 = n)).flatMap fun x =>
    (x.2.entries.filter fun e => s.before e.crossed && e.taken.isNone && there e.ang).map fun e =>
      { key := { edge := 0, past := -(dist d ap e.ang), num := 2 * x.1 + 1 }, ctx := x.1, ang := e.ang, id := none }

/-- The sweep takes an entry at this edge (R153). -/
def State.takeSwept (s : State) (w : Swept) : State := match w.id with
  | some o => { s with occs := s.occs.map fun x => if x.1 = o then (x.1, { x.2 with taken := some s.rank }) else x }
  | none => s.modCtx w.ctx fun c =>
      { c with entries := c.entries.map fun e => if e.ang = w.ang ∧ e.crossed.isSome then { e with taken := some s.rank, takenAp := (s.base (s.cbase w.ctx)).ap } else e }

/-- Up to `k` entries are taken in order (R152). -/
def State.sweepTake (s : State) (n rest : Nat) : Nat → State
  | 0 => s
  | k + 1 => match firstSwept Swept.key (s.sweepable n rest) with
    | some w => (s.takeSwept w).sweepTake n rest k
    | none => s

/-- The sweep of one RANK_CLK edge: the pointer goes at most 8 slots towards A_p's, and at most 8 crossed entries are taken
(R152, R153). -/
def State.sweepEdge (s : State) (n : Nat) : State :=
  if s.sweeps n then
    let p := (s.base n).slot
    let d := s.sweepDir n
    let gap := slotGap d p (slotOf (s.base n).ap)
    let s' := s.sweepTake n (gap - 8) 8
    let q := if gap ≤ 8 then slotOf (s.base n).ap else if d = .rev then (p + 1016) % 1024 else (p + 8) % 1024
    if p = q then s' else s'.modBase n fun b => { b with slot := q }
  else s

/-- The taken launch entries of base `n` that may act, with their contexts. -/
def State.ripeLaunches (s : State) (n : Nat) : List (Nat × LEntry) :=
  (s.ctxs.filter fun x => decide (s.cbase x.1 = n)).flatMap fun x =>
    (x.2.entries.filter fun e => s.ripe e.taken).map fun e => (x.1, e)

/-- A taken launch entry acts: it fires, or is a missed occurrence, by A_p of the edge it was taken at (R149, R154, R155). An entry
at its target carries LATE on a time base alone, when the target had passed as the entry was placed (R155, R156). -/
def State.takeLaunch (s : State) (n k : Nat) (e : LEntry) : State :=
  let ap := (s.base n).ap
  let d := dist e.dir e.takenAp e.tgt
  let lw : Int := ((s.ctx k).lw.toNat : Int)
  if s.isTime n = false ∧ d < -lw then
    let s := (s.bumpTw 0x0A k 12).ctxRecord 0x09 k 0 (s.tgtAp k e.tgt)
    let s := onlyIf (bit (s.reg 0x1400) 1) (·.house 0x5A0D) s
    (s.modCtx k fun c => { c with entries := [] }).arm k ((lo32 e.tgt).setWidth 64)
  else s.fire k e.tgt e.dir e.both (if e.ang = e.tgt then s.isTime n && e.behind else decide (d ≤ 0)) ap

/-- The effect of LAUNCH: the first taken launch entry of the base (R152, R154). -/
def State.launch (s : State) (n : Nat) : State :=
  let ap := (s.base n).ap
  let key := fun (x : Nat × LEntry) => { edge := x.2.taken.getD 0, past := -(dist x.2.dir ap x.2.ang), num := x.1 : SweepKey }
  match firstSwept key (s.ripeLaunches n) with
  | some (k, e) => s.takeLaunch n k e
  | none => s

/-- LAUNCH (R154). -/
def execLaunch (n : Nat) (s : State) : Out := done s (if n < 16 ∧ s.sweeps n = true then s.launch n else s)

/-- The effect of RELEASE_ORDERED: the first taken release entry of the base (R152, R161). -/
def State.releaseOrdered (s : State) (n : Nat) : State :=
  let ap := (s.base n).ap
  let l := (s.occs.map Prod.snd).filter fun o => decide (s.cbase o.ctx = n) && o.entry && s.ripe o.taken
  let key := fun (o : Occ) => { edge := o.taken.getD 0, past := -(dist o.dir ap o.tgt), num := o.ctx : SweepKey }
  match firstSwept key l with
  | some o => s.orderRelease o.id
  | none => s

/-- RELEASE_ORDERED (R161). -/
def execReleaseOrdered (n : Nat) (s : State) : Out :=
  done s (if n < 16 ∧ s.sweeps n = true then s.releaseOrdered n else s)

/-! ## REBUILD_END (R166) -/

/-- The effect of REBUILD_END: every armed context is armed from CTX_TGT against the snapshot, then the waiting arms; the
sweep resumes from the snapshot's angle (R166). -/
def State.rebuildEnd (s : State) (n : Nat) : State :=
  let b := s.base n
  match b.rebuild with
  | some (snap, t, cnt) =>
    if t + cdiv cnt 8 ≤ s.rank then
      let armed := s.armedOn n
      let s := s.modBase n fun x => { x with rebuild := none, waitArms := [], slot := slotOf snap }
      let time := s.isTime n
      let s := forEach armed (fun k s => s.armAt k (if time then s.ctgt k else (lo32 (s.ctgt k)).setWidth 64) snap) s
      let s := forEach b.waitArms (fun w s => s.armAt w.1 w.2 snap) s
      if (s.base n).st = .run ∧ snap ≠ (s.base n).ap then s.markMoves n snap (s.base n).ap else s
    else s
  | none => s

/-- REBUILD_END (R166). -/
def execRebuildEnd (n : Nat) (s : State) : Out := done s (if n < 16 ∧ s.domStill 1 = false then s.rebuildEnd n else s)

/-! ## HOLD_LIMIT_EXPIRY (R167, R301) -/

/-- The held locked sequence of an occurrence, when it holds one (R169). -/
def State.heldSeq (s : State) (o : Occ) : Option LSeq :=
  o.places.findSome? fun p => match p with
    | .seq id => s.lseq id
    | .write _ _ => none

/-- Whether an occurrence's hold is over: hlim from its raise; the lock-hold limit from its locks' acquisition while it holds
a held locked sequence; 0 sets no limit (R167, R300, R301). -/
def State.holdOver (s : State) (o : Occ) : Bool := match s.heldSeq o with
  | some q =>
    let lim := fld (s.reg 0x3014) 0 16
    decide (lim ≠ 0) && q.locks.any fun l => decide ((s.lock l).acq + 32 * lim ≤ s.eng2)
  | none => decide (o.hlim ≠ 0) && decide (o.raised + 64 * o.hlim ≤ s.rank)

/-- The effect of HOLD_LIMIT_EXPIRY: the squash; with a held locked sequence it is the lock-hold bite (R167, R300). -/
def State.holdExpire (s : State) (o : Nat) : State :=
  match mFind s.occs o with
  | some x =>
    if x.st = .launched ∧ s.holdOver x = true then
      let t := s.squash o 6
      if (s.heldSeq x).isSome then t.bite 0x0E (fnCtx x.ctx) else t
    else s
  | none => s

/-- HOLD_LIMIT_EXPIRY (R167). -/
def execHoldLimitExpiry (o : Nat) (s : State) : Out := done s (if s.domStill 1 = false then s.holdExpire o else s)

/-! ## Context commands and commits (R150, R168, R171) -/

/-- CTX_CMD with op ARM (R150, R171). -/
def State.cmdArm (s : State) (k : Nat) : State := if bit (s.ccfg k) 0 then s.arm k (s.ccmp k) else s

/-- CTX_CMD with op SQUASH (R171). -/
def State.cmdSquash (s : State) (k : Nat) : State := s.squashWhere k 9 fun _ => true

/-- A commit of CTX_CMP while an occurrence is launched retimes the oldest one (R168). -/
def State.retime (s : State) (k : Nat) (x : Occ) : State :=
  let n := s.cbase k
  let ap := (s.base n).ap
  let cmp := s.ccmp k
  let time := s.isTime n
  let dir : Dir := match s.bdir n with
    | .rev => .rev
    | _ => .fwd
  let d : Int := if time then (cmp - ap).toInt else if dir = .rev then (lo32 ap - lo32 cmp).toInt else (lo32 cmp - lo32 ap).toInt
  let lw : Int := ((s.ctx k).lw.toNat : Int)
  let t := along dir ap (BitVec.ofInt 64 d)
  if time = false ∧ d < -lw then s.squash x.id 0xA
  else
    let s :=
      if 0 < d then
        let y : Occ := { x with tgt := t, dir := if s.bdir n = .still then x.dir else dir, entry := true, crossed := none, taken := none }
        { s with occs := mPut s.occs x.id y }
      else
        let s := onlyIf (decide (d < 0)) (·.markLate { x with tgt := t } true) s
        s.orderRelease x.id
    if s.crep k then s.afterFire k t dir ap else s

/-- What a table-port WRITE of a context's words does before they are stored: a disarm, when en is cleared or the base
changes (R150, R171). -/
def State.ctxBefore (s : State) (k : Nat) (new : Word) : State :=
  let old := s.ccfg k
  if bit old 0 ∧ (bit new 0 = false ∨ fld new 1 4 ≠ fld old 1 4) then s.disarm k else s

/-- What it does once they are stored: arm or retime (R150, R168). `old` is CTX_CFG before the WRITE, `cmp` says that word
1 or 2 is committed. -/
def State.ctxAfter (s : State) (k : Nat) (old : Word) (cmp : Bool) : State :=
  let new := s.ccfg k
  if bit new 0 then
    if bit old 0 = false ∨ fld new 1 4 ≠ fld old 1 4 then s.arm k (s.ccmp k)
    else if cmp then s.armLater k none
    else s
  else s

/-! ## The scheduler's edge (R165) -/

/-- An arm whose edge ends: from its angle, or, for a commit of the compare, a retime of the oldest launched occurrence or an arm from
CTX_CMP (R148, R150, R168). -/
def State.dueArm (s : State) (k : Nat) (cmp : Option W64) : State :=
  match cmp, s.launchedOf k with
  | some c, _ => s.armNow k c
  | none, x :: _ => s.retime k x
  | none, [] => s.armNow k (s.ccmp k)

/-- The arms of the edge, in their order; those they call for in turn follow (R150, R163). -/
def State.dueArms (s : State) : Nat → State
  | 0 => s
  | n + 1 => match s.edge.arms with
    | [] => s
    | w :: rest => ({ s with edge := { s.edge with arms := rest } }.dueArm w.1 w.2).dueArms n

/-- What the bases and the scheduler do as an edge ends: the bases' work, the signals of every base, the sweeps, the arms, and the
releases that were ordered at the edge and that no squash took back (R143, R150, R152, R161, R162, R165). -/
def State.endSchedule (s : State) : State :=
  let l := mKeys s.bases
  let s := forEach l (fun n s => s.baseWork n) s
  let s := { s with edge := { s.edge with phs := [] } }
  let s := forEach l (fun n s =>
    let g := (s.base n).sig
    if g = {} then s else (s.modBase n fun b => { b with sig := {} }).signals n g) s
  let s := forEach l (fun n s => s.sweepEdge n) s
  let s := s.dueArms (2 * s.edge.arms.length)
  let s := forEach l (fun n s => s.sizeRebuild n) s
  let rel := s.edge.rel
  forEach rel (fun o s => s.finishRelease o) { s with edge := { s.edge with rel := [] } }

end Sys2Proof.Machine
end

