-- ==== Sys2Proof/Machine/Operands.lean ====
section
/-! DEFINITION. Operands of reflex instructions: work registers, immediates, slot words, outbound addresses (R190, R197,
R201, R202). -/

namespace Sys2Proof.Machine

/-- Work register `r` of engine `e` (R190). -/
def State.wreg (s : State) (e : Nat) (r : BitVec 5) : Word := mGet (fun _ => 0) (s.eng e).regs r.toNat
/-- Work register `r` of engine `e` takes a value. -/
def State.setWreg (s : State) (e : Nat) (r : BitVec 5) (v : Word) : State :=
  s.modEng e fun x => { x with regs := mSet (fun _ => 0) x.regs r.toNat v }
/-- A register as a signed number. -/
def State.swreg (s : State) (e : Nat) (r : BitVec 5) : Int := (s.wreg e r).toInt
/-- A shift amount held in a register: its low five bits. -/
def State.shamt (s : State) (e : Nat) (r : BitVec 5) : Nat := (s.wreg e r).toNat % 32

/-- A sign-extended 16-bit immediate. -/
def simm (imm : BitVec 16) : Word := imm.signExtend 32
/-- A zero-extended 16-bit immediate. -/
def zimm (imm : BitVec 16) : Word := imm.setWidth 32

/-- The slot-table key of word `j` of an engine's state slot (R178). -/
def slotEntry (slot j : Nat) : Nat := 16 * slot + j / 16
/-- What engine `e` finds among the writes of one ENG_CLK edge: the last by a lower-numbered engine, else the word before
them (R178). -/
def lastBelow (e : Nat) (base : Word) : List (Nat × Word) → Word
  | [] => base
  | x :: t => if x.1 < e then lastBelow e x.2 t else base

/-- A write of engine `e` takes its place among those of its edge, in ascending engine number (R178). -/
def slotPut (e : Nat) (v : Word) : List (Nat × Word) → List (Nat × Word)
  | [] => [(e, v)]
  | x :: t => if x.1 < e then x :: slotPut e v t else if x.1 = e then (e, v) :: t else (e, v) :: x :: t

/-- A word of an engine's state slot, as the engine reads it at this edge (R178). -/
def State.slotWord (s : State) (e j : Nat) : Word :=
  let i := slotEntry (s.eng e).slot j
  match mFind s.edge.slots (tKey 0x10 i (j % 16)) with
  | some x => lastBelow e x.1 x.2
  | none => s.tw 0x10 i (j % 16)
/-- A word of an engine's state slot takes a value. -/
def State.setSlotWord (s : State) (e j : Nat) (v : Word) : State :=
  let i := slotEntry (s.eng e).slot j
  let k := tKey 0x10 i (j % 16)
  let x := (mFind s.edge.slots k).getD (s.tw 0x10 i (j % 16), [])
  let l := slotPut e v x.2
  { s.setTw 0x10 i (j % 16) (lastBelow 512 x.1 l) with edge := { s.edge with slots := mPut s.edge.slots k (x.1, l) } }
/-- A slot write at this edge: a higher-numbered engine's read of the word at the edge that came before it in the queue takes it as well
(R178, R201). -/
def State.slotWrite (s : State) (e j : Nat) (v : Word) : State :=
  let slot := (s.eng e).slot
  let s := s.setSlotWord e j v
  forEach ((s.engs.filter fun x => decide (e < x.1 ∧ x.2.slot = slot)).map fun x => (x.1, x.2.ldAt)) (fun x s => match x.2 with
    | some (t, k, d) => if t = s.eng2 ∧ k = j then s.setWreg x.1 d (s.slotWord x.1 j) else s
    | none => s) s
/-- The word number of LDSX and STSX: wa + off in 32 bits (R201). -/
def State.slotIndex (s : State) (e : Nat) (a : BitVec 5) (off : BitVec 8) : Nat := (s.wreg e a + off.setWidth 32).toNat
/-- Whether a slot access is in range (R201). -/
def State.slotOk (s : State) (e j : Nat) : Bool := (s.eng e).slotv && decide (j < 256)

/-- The address of OUT and OUTH (R202). -/
def State.outAddr (s : State) (e : Nat) (a : BitVec 5) (off : BitVec 16) : Word :=
  (s.wreg e a &&& 0xFFFFFFFC#32) + (simm off <<< 2)

end Sys2Proof.Machine
end

