-- ==== Sys2Proof/Machine/Flags.lean ====
section
/-! DEFINITION. The sticky flag SAT, saturation, rounding and the accumulator (R193-R195). -/

namespace Sys2Proof.Machine

/-- The signed right shift of R194. -/
def roundShift (v : Int) (sh : Nat) (rnd : BitVec 2) : Int :=
  if sh = 0 then v
  else
    let q := v.fdiv (2 ^ sh)
    let rem := v - q * 2 ^ sh
    let half : Int := 2 ^ (sh - 1)
    let up : Bool := match rnd.toNat with
      | 0 => false
      | 1 => decide (half ≤ rem)
      | 2 => decide (half < rem ∨ rem = half ∧ q % 2 = 1)
      | _ => if 0 ≤ v then decide (half ≤ rem) else decide (half < rem)
    if up then q + 1 else q

/-- SAT becomes 1 when the exact result does not fit `n` bits (R193). -/
def State.noteSat (s : State) (e n : Nat) (v : Int) : State :=
  s.modEng e fun x => { x with sat := x.sat || !fitsInt n v }

/-- A register takes an exact result limited to `n` bits (R193). -/
def State.setSat (s : State) (e : Nat) (d : BitVec 5) (n : Nat) (v : Int) : State :=
  (s.noteSat e n v).setWreg e d (BitVec.ofInt 32 (satInt n v))

/-- The accumulator as a signed number (R195). -/
def State.accInt (s : State) (e : Nat) : Int := (s.eng e).acc.toInt

/-- The accumulator takes an exact result limited to 72 bits (R193, R195). -/
def State.setAcc (s : State) (e : Nat) (v : Int) : State :=
  (s.noteSat e 72 v).modEng e fun x => { x with acc := BitVec.ofInt 72 (satInt 72 v) }

end Sys2Proof.Machine
end

