-- ==== Sys2Proof/Machine/ReflexWord.lean ====
section
/-! DEFINITION. The words of reflex programs: the word of each instruction command, which words are defined, and what an
engine fetches (R192, R197-R199, R209). -/

namespace Sys2Proof.Machine

/-- A word from its opcode and its fields in their common places: d, a, b and the low bits below them (the table
"Instruction formats"). -/
def insn (op : BitVec 6) (d a b : BitVec 5) (x : BitVec 11) : Word := op ++ d ++ a ++ b ++ x

/-- A word with a 16-bit immediate or offset. -/
def insnI (op : BitVec 6) (d a : BitVec 5) (imm : BitVec 16) : Word := op ++ d ++ a ++ imm

/-- The word of an instruction command (R197); none for every other command. -/
def insnWord : Instr → Option Word
  | .nop _ _ => some (insn 0x01 0 0 0 0)
  | .add _ d a b _ => some (insn 0x02 d a b 0)
  | .sub _ d a b _ => some (insn 0x03 d a b 0)
  | .adds _ d a b _ => some (insn 0x04 d a b 0)
  | .subs _ d a b _ => some (insn 0x05 d a b 0)
  | .and _ d a b _ => some (insn 0x06 d a b 0)
  | .or _ d a b _ => some (insn 0x07 d a b 0)
  | .xor _ d a b _ => some (insn 0x08 d a b 0)
  | .shl _ d a b _ => some (insn 0x09 d a b 0)
  | .shr _ d a b _ => some (insn 0x0A d a b 0)
  | .sra _ d a b _ => some (insn 0x0B d a b 0)
  | .min _ d a b _ => some (insn 0x0C d a b 0)
  | .max _ d a b _ => some (insn 0x0D d a b 0)
  | .abs _ d a _ => some (insn 0x0E d a 0 0)
  | .clmp _ d a b _ => some (insn 0x0F d a b 0)
  | .addi _ d a imm _ => some (insnI 0x10 d a imm)
  | .addis _ d a imm _ => some (insnI 0x11 d a imm)
  | .andi _ d a imm _ => some (insnI 0x12 d a imm)
  | .ori _ d a imm _ => some (insnI 0x13 d a imm)
  | .ldi _ d imm _ => some (insnI 0x14 d 0 imm)
  | .lui _ d imm _ => some (insnI 0x15 d 0 imm)
  | .shli _ d a k _ => some (insnI 0x16 d a (k.setWidth 16))
  | .shri _ d a k _ => some (insnI 0x17 d a (k.setWidth 16))
  | .srai _ d a k _ => some (insnI 0x18 d a (k.setWidth 16))
  | .mul _ d a b sh rnd _ => some (insn 0x20 d a b (sh ++ rnd ++ 0#4))
  | .mac _ a b _ => some (insn 0x21 0 a b 0)
  | .msu _ a b _ => some (insn 0x22 0 a b 0)
  | .accld _ a sh _ => some (insn 0x23 0 a 0 (sh ++ 0#6))
  | .accadd _ a sh _ => some (insn 0x24 0 a 0 (sh ++ 0#6))
  | .accrd _ d sh rnd n16 _ => some (insn 0x25 d 0 0 (sh ++ rnd ++ BitVec.ofBool n16 ++ 0#3))
  | .lds _ d off _ => some (insnI 0x28 d 0 (off.setWidth 16))
  | .ldsx _ d a off _ => some (insnI 0x29 d a (off.setWidth 16))
  | .sts _ r off _ => some (insnI 0x2A r 0 (off.setWidth 16))
  | .stsx _ r a off _ => some (insnI 0x2B r a (off.setWidth 16))
  | .out _ r a off _ => some (insnI 0x2C r a off)
  | .outh _ r a off _ => some (insnI 0x2D r a off)
  | .br _ cond a b off _ => some (insn 0x30 cond a b off)
  | .loop _ body bound _ => some (insnI 0x31 0 0 (body ++ bound))
  | .loopr _ a body bound _ => some (insnI 0x32 0 a (body ++ bound))
  | .lock _ n _ => some (insn 0x34 0 0 0 (n.setWidth 11))
  | .rel _ _ => some (insn 0x35 0 0 0 0)
  | .raise _ d a _ => some (insn 0x38 d a 0 0)
  | .rds _ d sel _ => some (insn 0x39 d 0 0 (sel.setWidth 11))
  | .endR _ _ => some (insn 0x3F 0 0 0 0)
  | _ => none

/-- The instruction command a word of a reflex program spells for engine `e`, none for an ILLEGAL word (R192, R197). -/
def readWord (e : Nat) (w : Word) : Option Instr :=
  let d : BitVec 5 := w.extractLsb' 21 5
  let a : BitVec 5 := w.extractLsb' 16 5
  let b : BitVec 5 := w.extractLsb' 11 5
  let imm : BitVec 16 := w.extractLsb' 0 16
  let i : Option Instr := match fld w 26 6 with
    | 0x01 => some (.nop e .ok)
    | 0x02 => some (.add e d a b .ok)
    | 0x03 => some (.sub e d a b .ok)
    | 0x04 => some (.adds e d a b .ok)
    | 0x05 => some (.subs e d a b .ok)
    | 0x06 => some (.and e d a b .ok)
    | 0x07 => some (.or e d a b .ok)
    | 0x08 => some (.xor e d a b .ok)
    | 0x09 => some (.shl e d a b .ok)
    | 0x0A => some (.shr e d a b .ok)
    | 0x0B => some (.sra e d a b .ok)
    | 0x0C => some (.min e d a b .ok)
    | 0x0D => some (.max e d a b .ok)
    | 0x0E => some (.abs e d a .ok)
    | 0x0F => if b = 31 then none else some (.clmp e d a b .ok)
    | 0x10 => some (.addi e d a imm .ok)
    | 0x11 => some (.addis e d a imm .ok)
    | 0x12 => some (.andi e d a imm .ok)
    | 0x13 => some (.ori e d a imm .ok)
    | 0x14 => some (.ldi e d imm .ok)
    | 0x15 => some (.lui e d imm .ok)
    | 0x16 => some (.shli e d a (w.extractLsb' 0 5) .ok)
    | 0x17 => some (.shri e d a (w.extractLsb' 0 5) .ok)
    | 0x18 => some (.srai e d a (w.extractLsb' 0 5) .ok)
    | 0x20 => some (.mul e d a b (w.extractLsb' 6 5) (w.extractLsb' 4 2) .ok)
    | 0x21 => some (.mac e a b .ok)
    | 0x22 => some (.msu e a b .ok)
    | 0x23 => some (.accld e a (w.extractLsb' 6 5) .ok)
    | 0x24 => some (.accadd e a (w.extractLsb' 6 5) .ok)
    | 0x25 => some (.accrd e d (w.extractLsb' 6 5) (w.extractLsb' 4 2) (w.getLsbD 3) .ok)
    | 0x28 => some (.lds e d (w.extractLsb' 0 8) .ok)
    | 0x29 => some (.ldsx e d a (w.extractLsb' 0 8) .ok)
    | 0x2A => some (.sts e d (w.extractLsb' 0 8) .ok)
    | 0x2B => some (.stsx e d a (w.extractLsb' 0 8) .ok)
    | 0x2C => some (.out e d a imm .ok)
    | 0x2D => some (.outh e d a imm .ok)
    | 0x30 =>
      let none2 : Bool := d = 0 ∨ d = 7 ∨ d = 8
      if 0x0A < d.toNat ∨ (none2 ∧ (a ≠ 0 ∨ b ≠ 0)) then none else some (.br e d a b (w.extractLsb' 0 11) .ok)
    | 0x31 => if fld w 8 8 = 0 ∨ fld w 0 8 = 0 then none else some (.loop e (w.extractLsb' 8 8) (w.extractLsb' 0 8) .ok)
    | 0x32 => if fld w 8 8 = 0 ∨ fld w 0 8 = 0 then none else some (.loopr e a (w.extractLsb' 8 8) (w.extractLsb' 0 8) .ok)
    | 0x34 => some (.lock e (w.extractLsb' 0 6) .ok)
    | 0x35 => some (.rel e .ok)
    | 0x38 => some (.raise e d a .ok)
    | 0x39 => if 8 < fld w 0 5 then none else some (.rds e d (w.extractLsb' 0 5) .ok)
    | 0x3F => some (.endR e .ok)
    | _ => none
  match i with
  | some j => if insnWord j = some w then some j else none
  | none => none

end Sys2Proof.Machine
end

