-- ==== Sys2Proof/Machine/Engines.lean ====
section
/-! DEFINITION. Reflex engines: the take, the first instruction, engine faults, the completion collector, budgets and
self-tests (09, 16). -/

namespace Sys2Proof.Machine

/-! ## Engine faults (R184) -/

/-- The Sentinel mechanism of an engine fault's reason (the tables "Engine fault reasons" and "Sentinel mechanisms"). -/
def faultMech (reason : Nat) : Nat := match reason with
  | 0x1 => 0x0B
  | 0x4 => 0x06
  | 0x5 => 0x07
  | 0xB => 0x08
  | 0xC => 0x0E
  | _ => 0x12

/-- An engine fault is counted, shown and raised (R184). -/
def State.noteFault (s : State) (e reason : Nat) : State :=
  let s := (s.bumpTw 0x0B e 4).bump 0x180C
  let s := s.setReg 0x1808 (wd (at_ e 0 9 + at_ reason 9 4 + 0x10000))
  let s := s.modEng e fun x => { x with lastFlt := reason }
  onlyIf (bit (s.reg 0x1800) 0) (·.house 0x5A0E) s

/-- An engine fault is reported to the Sentinel: as a bite when a watchdog found it (R184, R300). -/
def State.reportFault (s : State) (e reason : Nat) (start2 : Bool) : State :=
  let m := faultMech reason
  if m = 0x0B ∨ m = 0x0E then s.bite m (fnEng e) else s.fault m (fnEng e) (start2 || decide (m = 0x08))

/-- An engine's waits are given up: its stalled write and its place among a lock's waiters (R209). -/
def State.dropWaits (s : State) (e : Nat) : State :=
  let s := s.modCluster (e / 16) fun c =>
    { c with stalled := c.stalled.filter fun i => match i.2.2 with
        | .marker _ => true
        | _ => decide (i.2.1 ≠ e) }
  let s := match (s.eng e).stall with
    | .lock n => s.modLock n fun l => { l with waiters := l.waiters.filter fun w => decide (w.2 ≠ e) }
    | _ => s
  s.modEng e fun x => { x with stall := .none }

/-- A reflex faults: its occurrence is squashed, its sequence ended, and a fault completion presented at the next edge; a BUDGET fault
undoes a LOCK it cuts off (R184, R209). -/
def State.engFault (s : State) (e reason : Nat) (start2 : Bool := false) : State :=
  let s := onlyIf (decide (reason = 0x1)) (·.undoLock e) (s.dropWaits e)
  let s := s.modEng e fun x => { x with st := .done, doneAt := s.eng2 + 1, flt := some reason, faultAt := none }
  let s := match (s.eng e).occ with
    | some o => s.squash o 7
    | none => s
  let s := forEach (s.seqsOf e) (fun q s => s.faultSeq q) s
  (s.noteFault e reason).reportFault e reason start2

/-- A fault of the running instruction, taken `n` ENG_CLK edges from now (R196, R201, R209). -/
def State.engFaultIn (s : State) (e reason n : Nat) : State :=
  if n = 0 then s.engFault e reason
  else s.modEng e fun x => { x with faultAt := some (s.eng2 + n, reason, false) }

/-- The faults on their way whose edge has come (R196, R209). -/
def State.dueFaults (s : State) : State :=
  forEach (s.engs.filterMap fun x => x.2.faultAt.map fun f => (x.1, f)) (fun x s =>
    if x.2.1 ≤ s.eng2 then s.engFault x.1 x.2.2.1 x.2.2.2 else s) s

/-! ## ENGINE_TAKE (R116, R175-R177) -/

/-- Whether an engine was a member of pool `p` before the present edge's changes (R175). -/
def State.memberBefore (s : State) (e p : Nat) : Bool :=
  let w := (mFind s.edge.ecfg e).getD (s.tw 0x0B e 0)
  bit w 0 && decide (fld w 1 6 = p)

/-- The engine a pool takes with: the lowest-numbered idle member, or the first above the last taker (R175). -/
def State.taker (s : State) (p : Nat) : Option Nat :=
  let l := ((List.range 512).filter fun e => s.memberBefore e p).filter fun e => s.idleEng e && (decide ((s.eng e).doneAt = 0) || decide ((s.eng e).doneAt < s.eng2))
  if bit (s.tw 0x0C p 0) 0 then
    match l.find? fun e => decide (mGet (fun _ => 0) s.pools p ≤ e) with
    | some e => some e
    | none => l.head?
  else l.head?

/-- The two origin bits of w2 (R177). -/
def origin (psn : Nat) : Nat := if isMsg psn then 1 else if isCtx psn then 2 else if isEng psn then 3 else 0

/-- The delivery frame: w0-w7 at the first instruction (R177). -/
def State.frame (s : State) (p : Nat) : List Word :=
  let x := s.src p
  let i : Inst := x.q.headD {}
  let w2 := x.seq.toNat + at_ (b2n i.late) 16 1 + at_ (b2n i.occ.isSome) 17 1 + at_ (b2n x.replay) 18 1 + at_ (origin p) 19 2
  let head := [if isMsg p || isEng p then i.payload else 0, wd (s.sidVtag p + at_ (s.sidTenant p) 16 8), wd w2]
  if isCtx p then
    let k := p - psnCtx
    let n := s.cbase k
    head ++ [wd (k + at_ (s.ctx k).sqr 12 4 + at_ (fld (s.tw 0x0A k 13) 0 16) 16 16), s.tw 0x0A k 7, s.tw 0x0A k 8,
             lo32 (s.base n).ap, s.bvel n]
  else head

/-- Register values in a sorted map, from register `k` on. -/
def regsFrom : Nat → List Word → SMap Word
  | _, [] => []
  | k, w :: t => if w = 0 then regsFrom (k + 1) t else (k, w) :: regsFrom (k + 1) t

/-- An engine loads a delivered source's binding, descriptor, slot words and frame (R176, R177, R180). -/
def State.loadEng (s : State) (e p : Nat) : State :=
  let b := s.tw 0x0E p 0
  let d := fld b 0 12
  let w0 := s.tw 0x0D d 0
  let w1 := s.tw 0x0D d 1
  let w2 := s.tw 0x0D d 2
  let entry := fld w0 0 16
  let len := fld w0 16 13
  let pre := if bit w2 9 then min 8 (fld w2 10 4) else 0
  let slot := fld w2 0 9
  let words := (List.range pre).map fun j => s.tw 0x10 (slotEntry slot j) (j % 16)
  let frame := (s.frame p ++ List.replicate 8 0).take 8
  let i : Inst := (s.src p).q.headD {}
  s.modEng e fun x =>
    { x with st := .load, regs := regsFrom 0 (frame ++ words), acc := 0, sat := false, pc := entry, sig := 0, lp := none,
             entry := entry, len := len, budget := fld w1 0 10, slot := slot, slotv := bit w2 9, dsig := s.tw 0x0D d 3,
             bindOk := bit b 12 && decide (len ≠ 0) && decide (fld w1 0 10 ≠ 0) && decide (entry + len ≤ 65536),
             preN := pre, psn := some p, occ := i.occ, takeAt := s.eng2, stall := .none, seqId := none, flt := none,
             faultAt := none, oldCopy := false, ldAt := none }

/-- The engines that took at this edge read what every update of the edge has left (R176, R178). -/
def State.endTakes (s : State) : State :=
  forEach s.edge.takes (fun e s => match (s.eng e).psn with
    | some p => if (s.eng e).st = .load then s.loadEng e p else s
    | none => s) s

/-- An engine takes a pool's confirmed offer: the pool's accepted CLAIM (R116, R175). -/
def State.take (s : State) (p e psn : Nat) : State :=
  let d := 512 + p
  let s := (s.modDst d fun x => { x with offer := none, timer := none, retractAt := none }).activate d psn
  let s := { s with pools := mSet (fun _ => 0) s.pools p (e + 1) }
  let s := if s.snt.testEng = some e then { s with snt := { s.snt with testEng := none } } else s
  let s := { s with edge := { s.edge with takes := s.edge.takes ++ [e] } }
  (((s.loadEng e psn).modEng e fun x => { x with pool := p }).bumpTw 0x0B e 3).bumpTw 0x0C p 2

/-- Whether a pool's offer is confirmed at an edge before the present ENG_CLK edge (R116). -/
def State.takeable (s : State) (p : Nat) : Option Nat := match (s.dst (512 + p)).offer with
  | some o => match o.conf with
    | some c => if c < 2 * s.eng2 then some o.psn else none
    | none => none
  | none => none

/-- ENGINE_TAKE (R175). -/
def execEngineTake (p : Nat) (s : State) : Out :=
  done s (match s.takeable p, s.taker p with
    | some psn, some e => if p < 64 ∧ s.domStill 0 = false then s.take p e psn else s
    | _, _ => s)

/-! ## FIRST_INSTRUCTION (R177, R180) -/

/-- The effect of FIRST_INSTRUCTION: the engine is in Run, or faults at that edge (R177, R180, R209). -/
def State.firstInsn (s : State) (e : Nat) (chk : PreChk) : State :=
  let s := s.modEng e fun x => { x with st := .run, startAt := s.eng2, readyAt := s.eng2 }
  if (s.eng e).bindOk = false then s.engFault e 0x7
  else match chk with
    | .eccDesc => s.engFault e 0x3 true
    | .eccFetch => s.engFault e 0x3 true
    | .eccSlot => if (s.eng e).preN = 0 then s else s.engFault e 0x3
    | .ok => s

/-- FIRST_INSTRUCTION (R177). -/
def execFirstInstruction (e : Nat) (chk : PreChk) (s : State) : Out :=
  done s (if e < 512 ∧ (s.eng e).st = .load ∧ (s.eng e).takeAt + 4 ≤ s.eng2 ∧ s.domStill (engDom e) = false then s.firstInsn e chk else s)

/-! ## BUDGET (R181) -/

/-- The cycle count of R181 at the present edge. -/
def State.cycles (s : State) (e : Nat) : Nat := s.eng2 - (s.eng e).startAt + 1

/-- The program-store word at an index, from the copy the reflex began on (R179, R259). -/
def State.progWord (s : State) (e i : Nat) : Word :=
  let k := tKey 0x0F (i / 16) (i % 16)
  if (s.eng e).oldCopy then mGet tblReset s.shadowTbl k else mGet tblReset s.tbl k

/-- The word an engine fetches next. -/
def State.fetched (s : State) (e : Nat) : Word := s.progWord e (s.eng e).pc

/-- Whether an engine issues its next instruction at the present edge: it runs, is not stalled, the last one's cycles have ended and
no fault of it is on its way (R191, R196). -/
def State.issuing (s : State) (e : Nat) : Bool :=
  let x := s.eng e
  x.st == .run && x.stall == .none && x.faultAt.isNone && decide (x.readyAt ≤ s.eng2) && !s.domStill (engDom e)

/-- The word of END. -/
def endWord : Word := 0xFC000000

/-- The effect of BUDGET: the fault, unless END issues at this very edge (R181, R209). -/
def State.budgetOut (s : State) (e : Nat) : State :=
  let x := s.eng e
  if x.st = .run ∧ x.budget ≤ s.cycles e ∧ s.domStill (engDom e) = false then
    if s.issuing e ∧ s.cycles e = x.budget ∧ s.fetched e = endWord ∧ x.pc = x.entry + x.len - 1 then s else s.engFault e 0x1
  else s

/-- BUDGET (R181). -/
def execBudget (e : Nat) (s : State) : Out := done s (if e < 512 then s.budgetOut e else s)

/-! ## COMPLETION_ACCEPT (R185) -/

/-- The engines of a cluster that present a completion, ascending. -/
def State.presenting (s : State) (c : Nat) : List Nat :=
  ((List.range 16).map (16 * c + ·)).filter fun e => (s.eng e).st == .done && decide ((s.eng e).doneAt ≤ s.eng2)

/-- The completion the collector accepts next: the first above the one it accepted last (R185). -/
def State.nextAccept (s : State) (c : Nat) : Option Nat :=
  let l := s.presenting c
  match l.find? fun e => decide ((s.cluster c).lastAcc ≤ e % 16) with
  | some e => some e
  | none => l.head?

/-- The instance of an accepted completion, 1 ENG_CLK after it: Completing, or gone when it was discarded while Active (R101, R184,
R185, R363). -/
def State.endActive (s : State) (p : Nat) (flushed : Bool) : State :=
  let d := (s.src p).dst
  let s := (s.setNest d ((s.dst d).nest.filter (· ≠ p))).bumpTw 0x08 d 5
  let s := s.modSrc p fun x => { x with endAt := none }
  if (s.src p).kept then s.leave p else s.completing p flushed

/-- The instances whose completion was accepted 1 ENG_CLK before this edge end (R185). -/
def State.dueEnds (s : State) : State :=
  forEach (s.srcs.filterMap fun x => x.2.endAt.map fun t => (x.1, t)) (fun x s =>
    if x.2.1 ≤ s.rank then s.endActive x.1 x.2.2 else s) s

/-- Each ENG_CLK cycle that a presented completion has waited counts (R185). -/
def State.countCwait (s : State) : State :=
  forEach ((s.engs.filter fun x => x.2.st == .done && decide (x.2.doneAt < s.eng2)).map Prod.fst) (fun e s => s.bumpTw 0x0B e 5) s

/-- The effect of COMPLETION_ACCEPT; a recovery step that the engine owes begins at the next edge (R174, R184, R185, R306). -/
def State.accept (s : State) (c e : Nat) : State :=
  let x := s.eng e
  let s := s.modCluster c fun y => { y with lastAcc := e % 16 + 1, accAt := some s.eng2 }
  let s := match x.psn with
    | some p => s.modSrc p fun y => { y with endAt := some (2 * s.eng2 + 2, x.flt.isSome) }
    | none => s
  s.modEng e fun y =>
    { y with st := if y.flt.isSome then .fault else s.restEng e, psn := none, occ := none, flt := none, idleAt := s.eng2,
             doneAt := s.eng2, oldCopy := false }

/-- COMPLETION_ACCEPT (R185). -/
def execCompletionAccept (c : Nat) (s : State) : Out :=
  done s (match s.nextAccept c with
    | some e => if c < 32 ∧ (s.cluster c).accAt ≠ some s.eng2 ∧ s.domStill (8 + c) = false then s.accept c e else s
    | none => s)

/-! ## Self-tests (R297, R302, R303) -/

/-- Whether an engine can be tested: idle for 64 ENG_CLK cycles, with its clock running (R297). -/
def State.testable (s : State) (e : Nat) : Bool :=
  let x := s.eng e
  x.st == .idle && decide (x.idleAt + 64 ≤ s.eng2) && !s.domStill (engDom e) && decide (x.recov = 0)

/-- Whether the rotation comes to an engine: no engine from the next one in turn up to it, in ascending order round, can be tested
(R297; the order DESIGN CHOICE, log 104). -/
def State.inTurn (s : State) (e : Nat) : Bool :=
  (List.range ((e + 512 - s.snt.testNext) % 512)).all fun i => !s.testable ((s.snt.testNext + i) % 512)

/-- SELF_TEST (R297). -/
def execSelfTest (e : Nat) (s : State) : Out :=
  done s (if e < 512 ∧ s.testable e ∧ s.snt.testEng = none ∧ s.inTurn e then
    { s.modEng e (fun y => { y with st := .test, testAt := s.eng2 }) with
      snt := { s.snt with testEng := some e, testNext := (e + 1) % 512 } }
  else s)

/-- A TEST fault: it ends no instance (R184). -/
def State.testFault (s : State) (e : Nat) : State :=
  ((s.modEng e fun x => { x with st := .fault, idleAt := s.eng2 }).noteFault e 0xB).reportFault e 0xB true

/-- The rotating self-test of an idle engine ends: a completed test, whether it passes or not (R297). -/
def State.endRotating (s : State) (e : Nat) (pass : Bool) : State :=
  let s := { s with snt := { s.snt with testEng := none } }.modEng e fun x => { x with tested := true }
  if pass then s.modEng e fun x => { x with st := s.restEng e, idleAt := s.eng2 } else s.testFault e

/-- An engine is retired: it stays in Fault and leaves its ladder (R303). -/
def State.retire (s : State) (e : Nat) : State :=
  let s := s.modFunc (fnEng e) fun f => { f with busy := true }
  let s := (s.testFault e).bump 0x30B4
  let s := s.modEng e fun x => { x with st := .fault, recov := 0, recovOn := false }
  s.modFunc (fnEng e) fun f => { f with step := 0, tmr := none, busy := false, cmd := false, retired := true }

/-- The self-test of a recovery step ends; a retired engine returns to service by a REINIT only (R302, R303). -/
def State.endRecov (s : State) (e : Nat) (pass : Bool) : State :=
  let step := (s.eng e).recov
  let finish := fun (s : State) => if (s.func (fnEng e)).busy then s.endStep (fnEng e) else s
  if pass then
    let stays := (s.func (fnEng e)).retired && !(s.func (fnEng e)).cmd
    let s := s.modEng e fun x => { x with st := if stays then .fault else s.restEng e, recov := 0, recovOn := false, idleAt := s.eng2 }
    finish (s.modFunc (fnEng e) fun f => { f with retired := stays })
  else if 2 ≤ step then s.retire e
  else (finish (s.modEng e fun x => { x with recov := 0, recovOn := false })).testFault e

/-- SELF_TEST_END (R297, R302). -/
def execSelfTestEnd (e : Nat) (pass : Bool) (s : State) : Out :=
  let x := s.eng e
  done s (if e < 512 ∧ x.st = .test ∧ s.domStill (engDom e) = false ∧ x.testAt + 512 ≤ s.eng2 then s.endRotating e pass
    else if e < 512 ∧ x.st = .fault ∧ x.recovOn = true ∧ s.domStill (engDom e) = false ∧ x.testAt + 528 ≤ s.eng2 then s.endRecov e pass
    else s)

/-- The effect of SELF_TEST_INTERVAL: each engine without a completed test counts, and the next interval begins (R297). An interval is
20 ms, 64,000,000 cycles of RANK_CLK at its nominal 3.2 GHz. -/
def State.endInterval (s : State) : State :=
  let n := ((List.range 512).filter fun e => !(s.eng e).tested).length
  forEach (mKeys s.engs) (fun e s => s.modEng e fun x => { x with tested := false }) 
    { s.bumpN 0x30B0 n with snt := { s.snt with testFrom := s.rank } }

/-- SELF_TEST_INTERVAL (R297). -/
def execSelfTestInterval (s : State) : Out := done s (if s.snt.testFrom + 64000000 ≤ s.rank then s.endInterval else s)

end Sys2Proof.Machine
end

