-- ==== Sys2Proof/Machine/Reflex.lean ====
section
/-! DEFINITION. The reflex instruction set: what issuing an instruction checks, and the meaning of each instruction (10). -/

namespace Sys2Proof.Machine

/-! ## Issue: fetch faults, placement, residue (R192, R196, R198-R201, R209) -/

/-- Whether a condition of BR holds (the table "Branch conditions"). -/
def State.branchHolds (s : State) (e : Nat) (cond a b : BitVec 5) : Bool :=
  let x := s.wreg e a
  let y := s.wreg e b
  match cond.toNat with
  | 0x00 => true
  | 0x01 => decide (x = y)
  | 0x02 => decide (x ≠ y)
  | 0x03 => decide (x.toInt < y.toInt)
  | 0x04 => decide (y.toInt ≤ x.toInt)
  | 0x05 => decide (x.toNat < y.toNat)
  | 0x06 => decide (y.toNat ≤ x.toNat)
  | 0x07 => (s.eng e).sat
  | 0x08 => !(s.eng e).sat
  | 0x09 => decide (x &&& y ≠ 0)
  | 0x0A => decide (x &&& y = 0)
  | _ => false

/-- Whether an instruction at the engine's index breaks a placement rule (R198, R199, R207). -/
def State.misplaced (s : State) (e : Nat) (i : Instr) : Bool :=
  let x := s.eng e
  let last := x.entry + x.len - 1
  match i with
  | .loop _ body _ _ => x.lp.isSome || decide (last ≤ x.pc + body.toNat)
  | .loopr _ _ body _ _ => x.lp.isSome || decide (last ≤ x.pc + body.toNat)
  | .lock _ _ _ => x.lp.isSome
  | .rel _ _ => x.lp.isSome
  | .br _ c a b off _ => match x.lp with
    | some l => s.branchHolds e c a b && decide (off ≠ 0) && decide (l.last < x.pc + 1 + off.toNat)
    | none => false
  | .endR _ _ => x.lp.isSome || x.seqId.isSome || decide (x.pc ≠ last)
  | _ => false

/-- The slot word an instruction addresses (R201). -/
def State.slotNo (s : State) (e : Nat) : Instr → Option Nat
  | .lds _ _ off _ => some off.toNat
  | .ldsx _ _ a off _ => some (s.slotIndex e a off)
  | .sts _ _ off _ => some off.toNat
  | .stsx _ _ a off _ => some (s.slotIndex e a off)
  | _ => none

/-- Whether an instruction's slot access is out of range (R201). -/
def State.slotOut (s : State) (e : Nat) (i : Instr) : Bool := match s.slotNo e i with
  | some j => !s.slotOk e j
  | none => false

/-- Cycles of an instruction the residue check runs beside, none for the others (R196, R197). -/
def residueCycles : Instr → Option Nat
  | .add _ _ _ _ _ => some 1
  | .sub _ _ _ _ _ => some 1
  | .adds _ _ _ _ _ => some 1
  | .subs _ _ _ _ _ => some 1
  | .abs _ _ _ _ => some 1
  | .addi _ _ _ _ _ => some 1
  | .addis _ _ _ _ _ => some 1
  | .mul _ _ _ _ _ _ _ => some 2
  | .mac _ _ _ _ => some 2
  | .msu _ _ _ _ => some 2
  | .accld _ _ _ _ => some 1
  | .accadd _ _ _ _ => some 1
  | .accrd _ _ _ _ _ _ => some 3
  | .ldsx _ _ _ _ _ => some 2
  | .stsx _ _ _ _ _ => some 1
  | .out _ _ _ _ _ => some 1
  | .outh _ _ _ _ _ => some 1
  | _ => none

/-- A RAISE on its way is judged once its edge has come, an instance that leaves Completing at the edge having freed its place (R186,
R205). -/
def State.settleRaise (s : State) (e : Nat) : State :=
  match (s.eng e).raiseAt with
  | some (t, pay, d) =>
    if t ≤ s.rank then
      let p := psnEng + e
      let s := (s.modEng e fun x => { x with raiseAt := none }).tryLeave p
      if (s.src p).q.length < 4 then (s.raise p { payload := pay }).setWreg e d 0
      else (s.bumpTw 0x0B e 6).setWreg e d 1
    else s
  | none => s

/-- Whether a RAISE of an engine is judged at the present edge and has not been yet (R205). -/
def State.raiseDue (s : State) (e : Nat) : Bool := match (s.eng e).raiseAt with
  | some (t, _, _) => decide (t ≤ s.rank)
  | none => false

/-- Whether a write of an engine passes the outbound window table (R212). A block that does not serve acts as with
OUT_GCFG.en = 0 (R250, R284). -/
def State.outPass (s : State) (e : Nat) (a : Word) : Bool :=
  let p := (s.eng e).pool
  s.serving && bit (s.reg 0x1C00) 0 && (List.range 16).any fun i =>
    bit (s.tw 0x11 i 4) 0 && decide ((s.tw 0x11 i 0).toNat ≤ a.toNat) && decide (a.toNat ≤ (s.tw 0x11 i 1).toNat)
      && bit (s.tw 0x11 i (2 + p / 32)) (p % 32)

/-- The sequence an engine is in. -/
def State.openSeq (s : State) (e : Nat) : Option LSeq := (s.eng e).seqId.bind s.lseq

/-- The occurrence of an engine's run-ahead instance. -/
def State.engOcc (s : State) (e : Nat) : Option Occ := (s.eng e).occ.bind (mFind s.occs)

/-- Whether an instruction is a write that finds its cluster's queue full (R202). -/
def State.wouldStall (s : State) (e : Nat) (i : Instr) : Bool :=
  let goes := fun (a : BitVec 5) (off : BitVec 16) => (s.cluster (e / 16)).full && (s.openSeq e).isNone && s.outPass e (s.outAddr e a off)
  match i with
  | .out _ _ a off _ => goes a off
  | .outh _ _ a off _ => goes a off && (match s.engOcc e with
    | none => true
    | some o => o.st == .ordered)
  | _ => false

/-- A residue mismatch of an instruction of `n` cycles: the fault comes in its last cycle, which a stalled write has once an entry is
free (R196, R202). -/
def State.residueFault (s : State) (e n : Nat) (i : Instr) : State :=
  if s.wouldStall e i then s.stallOn e (.bad e) else s.engFaultIn e 0x4 (n - 1)

/-- The engine issues the word at its index: a fetch fault, or the instruction `i` when that is the word's, with `run` its
effect. An instruction that is not the fetched one changes nothing (R181, R192, R196, R201, R209; log 25). The instruction after a RAISE
issues once the raise is judged, as the edge ends (R205; log 123). -/
def State.issue (s : State) (e : Nat) (i : Instr) (chk : Chk) (run : State → State) : State :=
  if s.issuing e = false then s
  else if s.raiseDue e then { s with edge := { s.edge with issues := s.edge.issues ++ [i] } }
  else
    let x := s.eng e
    let w := s.fetched e
    if x.budget ≤ s.cycles e ∧ ¬(w = endWord ∧ s.cycles e = x.budget) then s.engFault e 0x1
    else if x.pc < x.entry ∨ x.entry + x.len ≤ x.pc then s.engFault e 0x6
    else if chk = .eccFetch then s.engFault e 0x3 true
    else match readWord e w with
      | none => s.engFault e 0x2
      | some j =>
        if s.misplaced e j then s.engFault e 0x2
        else if insnWord i ≠ some w then s
        else if s.slotOut e i then s.engFault e 0x6
        else match residueCycles i with
          | some n => if chk = .residue then s.residueFault e n i else run s
          | none => run s

/-- The sum of the n indices from i on (R208). -/
def indexSum (i n : Nat) : Nat := n * i + n * (n - 1) / 2

/-- Where an engine goes after an instruction of `cycles` cycles whose next index is `target`: the signature adds what is
passed, and the last instruction of a loop's body ends the iteration (R197, R199, R200, R208). -/
def Eng.advance (x : Eng) (now target cycles : Nat) : Eng :=
  let passing : Bool := match x.lp with
    | some l => l.firstPass
    | none => true
  let x := { x with sig := if passing = true then x.sig + wd (indexSum x.pc (target - x.pc)) else x.sig }
  match x.lp with
  | some l =>
    if x.pc ≠ l.last then { x with pc := target, readyAt := now + cycles }
    else if 1 < l.left then
      { x with pc := l.first, lp := some { l with left := l.left - 1, firstPass := false }, readyAt := now + cycles + 1 }
    else { x with pc := target, lp := none, readyAt := now + cycles }
  | none => { x with pc := target, readyAt := now + cycles }

/-- The engine goes on to index `target`. -/
def State.advanceTo (s : State) (e target cycles : Nat) : State := s.modEng e fun x => x.advance s.eng2 target cycles
/-- The engine goes on to the next index. -/
def State.advance (s : State) (e cycles : Nat) : State := s.advanceTo e ((s.eng e).pc + 1) cycles

/-- A register takes a value and the engine goes on. -/
def State.put (s : State) (e : Nat) (d : BitVec 5) (v : Word) (cycles : Nat := 1) : State :=
  (s.setWreg e d v).advance e cycles

/-! ## Register and immediate instructions -/

/-- NOP (R197). -/
def execNop (e : Nat) (chk : Chk) (s : State) : Out :=
  done s (s.issue e (.nop e chk) chk fun s => s.advance e 1)
/-- ADD (R197). -/
def execAdd (e : Nat) (d a b : BitVec 5) (chk : Chk) (s : State) : Out :=
  done s (s.issue e (.add e d a b chk) chk fun s => s.put e d (s.wreg e a + s.wreg e b))
/-- SUB (R197). -/
def execSub (e : Nat) (d a b : BitVec 5) (chk : Chk) (s : State) : Out :=
  done s (s.issue e (.sub e d a b chk) chk fun s => s.put e d (s.wreg e a - s.wreg e b))
/-- ADDS (R193, R197). -/
def execAdds (e : Nat) (d a b : BitVec 5) (chk : Chk) (s : State) : Out :=
  done s (s.issue e (.adds e d a b chk) chk fun s => (s.setSat e d 32 (s.swreg e a + s.swreg e b)).advance e 1)
/-- SUBS (R193, R197). -/
def execSubs (e : Nat) (d a b : BitVec 5) (chk : Chk) (s : State) : Out :=
  done s (s.issue e (.subs e d a b chk) chk fun s => (s.setSat e d 32 (s.swreg e a - s.swreg e b)).advance e 1)
/-- AND (R197). -/
def execAnd (e : Nat) (d a b : BitVec 5) (chk : Chk) (s : State) : Out :=
  done s (s.issue e (.and e d a b chk) chk fun s => s.put e d (s.wreg e a &&& s.wreg e b))
/-- OR (R197). -/
def execOr (e : Nat) (d a b : BitVec 5) (chk : Chk) (s : State) : Out :=
  done s (s.issue e (.or e d a b chk) chk fun s => s.put e d (s.wreg e a ||| s.wreg e b))
/-- XOR (R197). -/
def execXor (e : Nat) (d a b : BitVec 5) (chk : Chk) (s : State) : Out :=
  done s (s.issue e (.xor e d a b chk) chk fun s => s.put e d (s.wreg e a ^^^ s.wreg e b))
/-- SHL (R197). -/
def execShl (e : Nat) (d a b : BitVec 5) (chk : Chk) (s : State) : Out :=
  done s (s.issue e (.shl e d a b chk) chk fun s => s.put e d (s.wreg e a <<< s.shamt e b))
/-- SHR (R197). -/
def execShr (e : Nat) (d a b : BitVec 5) (chk : Chk) (s : State) : Out :=
  done s (s.issue e (.shr e d a b chk) chk fun s => s.put e d (s.wreg e a >>> s.shamt e b))
/-- SRA (R197). -/
def execSra (e : Nat) (d a b : BitVec 5) (chk : Chk) (s : State) : Out :=
  done s (s.issue e (.sra e d a b chk) chk fun s => s.put e d ((s.wreg e a).sshiftRight (s.shamt e b)))
/-- MIN (R197). -/
def execMin (e : Nat) (d a b : BitVec 5) (chk : Chk) (s : State) : Out :=
  done s (s.issue e (.min e d a b chk) chk fun s => s.put e d (if s.swreg e a ≤ s.swreg e b then s.wreg e a else s.wreg e b))
/-- MAX (R197). -/
def execMax (e : Nat) (d a b : BitVec 5) (chk : Chk) (s : State) : Out :=
  done s (s.issue e (.max e d a b chk) chk fun s => s.put e d (if s.swreg e a ≤ s.swreg e b then s.wreg e b else s.wreg e a))
/-- ABS (R193, R197). -/
def execAbs (e : Nat) (d a : BitVec 5) (chk : Chk) (s : State) : Out :=
  done s (s.issue e (.abs e d a chk) chk fun s => (s.setSat e d 32 (s.swreg e a).natAbs).advance e 1)
/-- CLMP (R193, R197): the bounds are wb and w(b+1). -/
def execClmp (e : Nat) (d a b : BitVec 5) (chk : Chk) (s : State) : Out :=
  done s (s.issue e (.clmp e d a b chk) chk fun s =>
    s.put e d (BitVec.ofInt 32 (min (max (s.swreg e a) (s.swreg e b)) (s.swreg e (b + 1)))))
/-- ADDI (R197). -/
def execAddi (e : Nat) (d a : BitVec 5) (imm : BitVec 16) (chk : Chk) (s : State) : Out :=
  done s (s.issue e (.addi e d a imm chk) chk fun s => s.put e d (s.wreg e a + simm imm))
/-- ADDIS (R193, R197). -/
def execAddis (e : Nat) (d a : BitVec 5) (imm : BitVec 16) (chk : Chk) (s : State) : Out :=
  done s (s.issue e (.addis e d a imm chk) chk fun s => (s.setSat e d 32 (s.swreg e a + imm.toInt)).advance e 1)
/-- ANDI (R197). -/
def execAndi (e : Nat) (d a : BitVec 5) (imm : BitVec 16) (chk : Chk) (s : State) : Out :=
  done s (s.issue e (.andi e d a imm chk) chk fun s => s.put e d (s.wreg e a &&& zimm imm))
/-- ORI (R197). -/
def execOri (e : Nat) (d a : BitVec 5) (imm : BitVec 16) (chk : Chk) (s : State) : Out :=
  done s (s.issue e (.ori e d a imm chk) chk fun s => s.put e d (s.wreg e a ||| zimm imm))
/-- LDI (R197). -/
def execLdi (e : Nat) (d : BitVec 5) (imm : BitVec 16) (chk : Chk) (s : State) : Out :=
  done s (s.issue e (.ldi e d imm chk) chk fun s => s.put e d (simm imm))
/-- LUI (R197): the low half is kept. -/
def execLui (e : Nat) (d : BitVec 5) (imm : BitVec 16) (chk : Chk) (s : State) : Out :=
  done s (s.issue e (.lui e d imm chk) chk fun s => s.put e d (imm ++ (s.wreg e d).setWidth 16))
/-- SHLI (R197). -/
def execShli (e : Nat) (d a k : BitVec 5) (chk : Chk) (s : State) : Out :=
  done s (s.issue e (.shli e d a k chk) chk fun s => s.put e d (s.wreg e a <<< k.toNat))
/-- SHRI (R197). -/
def execShri (e : Nat) (d a k : BitVec 5) (chk : Chk) (s : State) : Out :=
  done s (s.issue e (.shri e d a k chk) chk fun s => s.put e d (s.wreg e a >>> k.toNat))
/-- SRAI (R197). -/
def execSrai (e : Nat) (d a k : BitVec 5) (chk : Chk) (s : State) : Out :=
  done s (s.issue e (.srai e d a k chk) chk fun s => s.put e d ((s.wreg e a).sshiftRight k.toNat))

/-! ## Multiply and accumulator instructions -/

/-- MUL (R193, R194, R197). -/
def execMul (e : Nat) (d a b : BitVec 5) (sh : BitVec 5) (rnd : BitVec 2) (chk : Chk) (s : State) : Out :=
  done s (s.issue e (.mul e d a b sh rnd chk) chk fun s =>
    (s.setSat e d 32 (roundShift (s.swreg e a * s.swreg e b) sh.toNat rnd)).advance e 2)
/-- MAC (R195, R197). -/
def execMac (e : Nat) (a b : BitVec 5) (chk : Chk) (s : State) : Out :=
  done s (s.issue e (.mac e a b chk) chk fun s => (s.setAcc e (s.accInt e + s.swreg e a * s.swreg e b)).advance e 2)
/-- MSU (R195, R197). -/
def execMsu (e : Nat) (a b : BitVec 5) (chk : Chk) (s : State) : Out :=
  done s (s.issue e (.msu e a b chk) chk fun s => (s.setAcc e (s.accInt e - s.swreg e a * s.swreg e b)).advance e 2)
/-- ACCLD (R197): a shifted 32-bit value always fits. -/
def execAccld (e : Nat) (a sh : BitVec 5) (chk : Chk) (s : State) : Out :=
  done s (s.issue e (.accld e a sh chk) chk fun s => (s.setAcc e (s.swreg e a * 2 ^ sh.toNat)).advance e 1)
/-- ACCADD (R195, R197). -/
def execAccadd (e : Nat) (a sh : BitVec 5) (chk : Chk) (s : State) : Out :=
  done s (s.issue e (.accadd e a sh chk) chk fun s => (s.setAcc e (s.accInt e + s.swreg e a * 2 ^ sh.toNat)).advance e 1)
/-- ACCRD (R193-R195, R197): the accumulator stays. -/
def execAccrd (e : Nat) (d sh : BitVec 5) (rnd : BitVec 2) (n16 : Bool) (chk : Chk) (s : State) : Out :=
  done s (s.issue e (.accrd e d sh rnd n16 chk) chk fun s =>
    (s.setSat e d (if n16 then 16 else 32) (roundShift (s.accInt e) sh.toNat rnd)).advance e 3)

/-! ## State-slot access (R201) -/

/-- A slot read takes its word at this edge, in `cycles` cycles; the engine notes it for the writes of lower engines that follow at the
edge (R178, R201). -/
def State.takeWord (s : State) (e : Nat) (d : BitVec 5) (j cycles : Nat) : State :=
  (s.put e d (s.slotWord e j) cycles).modEng e fun x => { x with ldAt := some (s.eng2, j, d) }

/-- A slot read: its word, one cycle more when an error was corrected; an uncorrectable one faults at the next edge (R201). -/
def State.slotRead (s : State) (e : Nat) (d : BitVec 5) (j : Nat) (chk : Chk) : State := match chk with
  | .eccSlot => s.engFaultIn e 0x3 1
  | .eccCorr => s.takeWord e d j 3
  | _ => s.takeWord e d j 2

/-- LDS (R201). -/
def execLds (e : Nat) (d : BitVec 5) (off : BitVec 8) (chk : Chk) (s : State) : Out :=
  done s (s.issue e (.lds e d off chk) chk fun s => s.slotRead e d off.toNat chk)
/-- LDSX (R201). -/
def execLdsx (e : Nat) (d a : BitVec 5) (off : BitVec 8) (chk : Chk) (s : State) : Out :=
  done s (s.issue e (.ldsx e d a off chk) chk fun s => s.slotRead e d (s.slotIndex e a off) chk)
/-- STS (R201). -/
def execSts (e : Nat) (r : BitVec 5) (off : BitVec 8) (chk : Chk) (s : State) : Out :=
  done s (s.issue e (.sts e r off chk) chk fun s => (s.slotWrite e off.toNat (s.wreg e r)).advance e 1)
/-- STSX (R201). -/
def execStsx (e : Nat) (r a : BitVec 5) (off : BitVec 8) (chk : Chk) (s : State) : Out :=
  done s (s.issue e (.stsx e r a off chk) chk fun s => (s.slotWrite e (s.slotIndex e a off) (s.wreg e r)).advance e 1)

/-! ## Outbound and held writes (R159, R160, R202-R204, R212) -/

/-- A write is discarded: counted, shown, raised (R212). -/
def State.outDrop (s : State) (e : Nat) (a : Word) : State :=
  let s := ((s.bump 0x1C24).setReg 0x1C08 a).setReg 0x1C0C (wd (e + 0x200))
  onlyIf (bit (s.reg 0x1C00) 1) (·.house 0x5A0F) s

/-- A write is staged; the 33rd faults (R204). -/
def State.stage (s : State) (e : Nat) (q : LSeq) (a d : Word) (held : Bool) : State :=
  if 32 ≤ q.writes.length then s.engFault e 0xA
  else (s.setLseq { q with writes := q.writes ++ [(a, d)], outh := q.outh || held }).advance e 1

/-- A write enters the cluster's queue as it issues, or stalls the engine (R202). -/
def State.queueWrite (s : State) (e : Nat) (a d : Word) : State := (s.advance e 1).enqueue e (.plain e a d)

/-- The effect of OUT (R202, R204, R212). -/
def State.outPlain (s : State) (e : Nat) (a d : Word) : State :=
  if s.outPass e a then
    match s.openSeq e with
    | some q => s.stage e q a d false
    | none => s.queueWrite e a d
  else (s.outDrop e a).advance e 1

/-- A held place is refused: an HFULL fault, counted (R160). -/
def State.heldFull (s : State) (e : Nat) : State := (s.bump 0x1414).engFault e 0x9

/-- An occurrence takes one more held place of an engine (R160). -/
def State.holdPlace (s : State) (e : Nat) (o : Occ) (p : HeldPlace) : State :=
  { s with occs := mPut s.occs o.id { o with engine := some e, places := o.places ++ [p] } }

/-- A held write whose release was ordered enters the cluster's queue and marks its occurrence late, or stalls the engine until it enters
(R159, R202, R203). -/
def State.lateQueue (s : State) (e : Nat) (o : Occ) (a d : Word) : State :=
  if (s.cluster (e / 16)).full then (s.advance e 1).stallOn e (.late e o.id a d) else (s.lateWrite o).queueWrite e a d

/-- The effect of OUTH (R203, R204, R212). -/
def State.outHeld (s : State) (e : Nat) (a d : Word) : State :=
  if s.outPass e a then
    match s.openSeq e with
    | some q => s.stage e q a d true
    | none => match s.engOcc e with
      | none => s.queueWrite e a d
      | some o => match o.st with
        | .launched => if 8 ≤ s.heldBy e then s.heldFull e else (s.holdPlace e o (.write a d)).advance e 1
        | .ordered => s.lateQueue e o a d
        | .squashed => s.advance e 1
  else (s.outDrop e a).advance e 1

/-- OUT (R202). -/
def execOut (e : Nat) (r a : BitVec 5) (off : BitVec 16) (chk : Chk) (s : State) : Out :=
  done s (s.issue e (.out e r a off chk) chk fun s => s.outPlain e (s.outAddr e a off) (s.wreg e r))
/-- OUTH (R203). -/
def execOuth (e : Nat) (r a : BitVec 5) (off : BitVec 16) (chk : Chk) (s : State) : Out :=
  done s (s.issue e (.outh e r a off chk) chk fun s => s.outHeld e (s.outAddr e a off) (s.wreg e r))

/-! ## Branches and loops (R198-R200) -/

/-- BR (R198). -/
def execBr (e : Nat) (cond a b : BitVec 5) (off : BitVec 11) (chk : Chk) (s : State) : Out :=
  done s (s.issue e (.br e cond a b off chk) chk fun s =>
    if s.branchHolds e cond a b then s.advanceTo e ((s.eng e).pc + 1 + off.toNat) 2 else s.advance e 1)

/-- A loop instruction begins its loop of n iterations, or skips the body when n = 0 (R199, R208). -/
def State.beginLoop (s : State) (e body n : Nat) : State :=
  let i := (s.eng e).pc
  if n = 0 then s.advanceTo e (i + body + 1) 1
  else (s.advance e 1).modEng e fun x => { x with lp := some { first := i + 1, last := i + body, left := n, firstPass := true } }

/-- LOOP (R199). -/
def execLoop (e : Nat) (body bound : BitVec 8) (chk : Chk) (s : State) : Out :=
  done s (s.issue e (.loop e body bound chk) chk fun s => s.beginLoop e body.toNat bound.toNat)
/-- LOOPR (R199). -/
def execLoopr (e : Nat) (a : BitVec 5) (body bound : BitVec 8) (chk : Chk) (s : State) : Out :=
  done s (s.issue e (.loopr e a body bound chk) chk fun s =>
    s.beginLoop e body.toNat (min (s.swreg e a).toNat bound.toNat))

/-! ## Locked sequences (R169, R204, R221) -/

/-- The effect of LOCK (R204, R221). -/
def State.lockInsn (s : State) (e n : Nat) : State :=
  let held : List Nat := match s.openSeq e with
    | some q => q.locks
    | none => []
  if held.any fun l => decide (n ≤ l) then s.engFault e 0x8
  else
    let s := s.advance e 2
    if (s.lock n).owner.isNone then s.acquire e n
    else (s.modLock n fun l => { l with waiters := l.waiters ++ [(s.eng2, e)] }).modEng e fun x => { x with stall := .lock n }

/-- LOCK (R204, R221). -/
def execLock (e : Nat) (n : BitVec 6) (chk : Chk) (s : State) : Out :=
  done s (s.issue e (.lock e n chk) chk fun s => s.lockInsn e n.toNat)

/-- A sequence is released as an ordinary one: with no writes it is COMMITTED and its locks are freed at the edge after;
otherwise its burst marker is queued (R204, R221, R222). -/
def State.relOrdinary (s : State) (e : Nat) (q : LSeq) : State :=
  if q.writes.isEmpty then ((s.noteOutcome q 1).freeNextEdge q).advance e 1
  else
    let s := (s.setLseq { q with ph := .queued }).modEng e fun x => { x with seqId := none }
    (s.advance e 1).enqueue e (.marker q.id)

/-- The effect of REL (R169, R204). -/
def State.relInsn (s : State) (e : Nat) : State :=
  match s.openSeq e with
  | none => s.advance e 1
  | some q => match s.engOcc e with
    | none => s.relOrdinary e q
    | some o =>
      if q.outh = false then s.relOrdinary e q
      else match o.st with
        | .launched =>
          if 8 ≤ s.heldBy e then s.heldFull e
          else
            let s := (s.setLseq { q with ph := .occHeld o.id, relAt := 2 * s.eng2 }).modEng e fun x => { x with seqId := none }
            (s.holdPlace e o (.seq q.id)).advance e 1
        | .ordered => (s.lateWrite o).relOrdinary e q
        | .squashed => (s.abandonSeq q).advance e 1

/-- REL (R204). -/
def execRel (e : Nat) (chk : Chk) (s : State) : Out := done s (s.issue e (.rel e chk) chk fun s => s.relInsn e)

/-! ## Raise, status and end (R205-R207) -/

/-- RAISE (R205): judged at the RANK_CLK edge 1 ENG_CLK after its issue. -/
def execRaise (e : Nat) (d a : BitVec 5) (chk : Chk) (s : State) : Out :=
  done s (s.issue e (.raise e d a chk) chk fun s =>
    (s.advance e 1).modEng e fun x => { x with raiseAt := some (2 * (s.eng2 + 1), s.wreg e a, d) })

/-- An item of engine status (the table "RDS selectors"). -/
def State.rdsItem (s : State) (e sel : Nat) : Word :=
  let x := s.eng e
  let q := s.openSeq e
  let locks : List Nat := match q with
    | some q => q.locks
    | none => []
  let is := fun (t : OccSt) => match s.engOcc e with
    | some o => decide (o.st = t)
    | none => false
  match sel with
  | 0x00 => wd (at_ e 0 9 + at_ (e / 32) 9 4)
  | 0x01 => wd (s.cycles e)
  | 0x02 => wd (b2n x.sat + at_ (b2n q.isSome) 1 1 + at_ (b2n (is .ordered)) 2 1 + at_ (b2n (is .squashed)) 3 1)
  | 0x03 => wd (8 - s.heldBy e)
  | 0x04 => wd (at_ (locks.foldl max 0) 0 6 + at_ (b2n q.isSome) 6 1)
  | 0x05 => wd ((q.map fun q => q.writes.length).getD 0)
  | 0x06 => x.acc.extractLsb' 0 32
  | 0x07 => x.acc.extractLsb' 32 32
  | _ => (x.acc.extractLsb' 64 8).signExtend 32

/-- RDS (R206). -/
def execRds (e : Nat) (d sel : BitVec 5) (chk : Chk) (s : State) : Out :=
  done s (s.issue e (.rds e d sel chk) chk fun s => s.put e d (s.rdsItem e sel.toNat))

/-- The effect of END: the signature check; the reflex ends, and RFX_ECYC shows its count (R181, R185, R207). -/
def State.endInsn (s : State) (e : Nat) : State :=
  let x := s.eng e
  if x.sig + wd x.pc = x.dsig then
    let n := s.cycles e
    let w := s.tw 0x0B e 2
    (s.setTw 0x0B e 2 (wd (at_ n 0 16 + at_ (max n (fld w 16 16)) 16 16))).modEng e fun y =>
      { y with st := .done, doneAt := s.eng2 + 1, flt := none }
  else s.engFault e 0x5

/-- END (R207). -/
def execEndR (e : Nat) (chk : Chk) (s : State) : Out := done s (s.issue e (.endR e chk) chk fun s => s.endInsn e)

/-! ## The instructions that wait for a RAISE (R205) -/

/-- The state an outcome answers, or `s` where it answers none. -/
def Out.stateOr (o : Out) (s : State) : State := match o with
  | .next t => t
  | _ => s

/-- An instruction that waited for its engine's RAISE to be judged issues (R205). -/
def State.reissue (s : State) (i : Instr) : State := match i with
  | .nop e chk => (execNop e chk s).stateOr s
  | .add e d a b chk => (execAdd e d a b chk s).stateOr s
  | .sub e d a b chk => (execSub e d a b chk s).stateOr s
  | .adds e d a b chk => (execAdds e d a b chk s).stateOr s
  | .subs e d a b chk => (execSubs e d a b chk s).stateOr s
  | .and e d a b chk => (execAnd e d a b chk s).stateOr s
  | .or e d a b chk => (execOr e d a b chk s).stateOr s
  | .xor e d a b chk => (execXor e d a b chk s).stateOr s
  | .shl e d a b chk => (execShl e d a b chk s).stateOr s
  | .shr e d a b chk => (execShr e d a b chk s).stateOr s
  | .sra e d a b chk => (execSra e d a b chk s).stateOr s
  | .min e d a b chk => (execMin e d a b chk s).stateOr s
  | .max e d a b chk => (execMax e d a b chk s).stateOr s
  | .abs e d a chk => (execAbs e d a chk s).stateOr s
  | .clmp e d a b chk => (execClmp e d a b chk s).stateOr s
  | .addi e d a imm chk => (execAddi e d a imm chk s).stateOr s
  | .addis e d a imm chk => (execAddis e d a imm chk s).stateOr s
  | .andi e d a imm chk => (execAndi e d a imm chk s).stateOr s
  | .ori e d a imm chk => (execOri e d a imm chk s).stateOr s
  | .ldi e d imm chk => (execLdi e d imm chk s).stateOr s
  | .lui e d imm chk => (execLui e d imm chk s).stateOr s
  | .shli e d a k chk => (execShli e d a k chk s).stateOr s
  | .shri e d a k chk => (execShri e d a k chk s).stateOr s
  | .srai e d a k chk => (execSrai e d a k chk s).stateOr s
  | .mul e d a b sh rnd chk => (execMul e d a b sh rnd chk s).stateOr s
  | .mac e a b chk => (execMac e a b chk s).stateOr s
  | .msu e a b chk => (execMsu e a b chk s).stateOr s
  | .accld e a sh chk => (execAccld e a sh chk s).stateOr s
  | .accadd e a sh chk => (execAccadd e a sh chk s).stateOr s
  | .accrd e d sh rnd n16 chk => (execAccrd e d sh rnd n16 chk s).stateOr s
  | .lds e d off chk => (execLds e d off chk s).stateOr s
  | .ldsx e d a off chk => (execLdsx e d a off chk s).stateOr s
  | .sts e r off chk => (execSts e r off chk s).stateOr s
  | .stsx e r a off chk => (execStsx e r a off chk s).stateOr s
  | .out e r a off chk => (execOut e r a off chk s).stateOr s
  | .outh e r a off chk => (execOuth e r a off chk s).stateOr s
  | .br e cond a b off chk => (execBr e cond a b off chk s).stateOr s
  | .loop e body bound chk => (execLoop e body bound chk s).stateOr s
  | .loopr e a body bound chk => (execLoopr e a body bound chk s).stateOr s
  | .lock e n chk => (execLock e n chk s).stateOr s
  | .rel e chk => (execRel e chk s).stateOr s
  | .raise e d a chk => (execRaise e d a chk s).stateOr s
  | .rds e d sel chk => (execRds e d sel chk s).stateOr s
  | .endR e chk => (execEndR e chk s).stateOr s
  | _ => s

/-- The RAISEs judged at the edge, against the sources' state after every update of it, and then the instructions that waited for them
(R186, R205; log 123). -/
def State.endRaises (s : State) : State :=
  let due := (s.engs.filter fun x => x.2.raiseAt.isSome).map Prod.fst
  let s := forEach due (fun e s => s.settleRaise e) s
  let l := s.edge.issues
  forEach l (fun i s => s.reissue i) { s with edge := { s.edge with issues := [] } }

end Sys2Proof.Machine
end

