-- ==== Sys2Proof/WellFormed.lean ====
section
/-! DEFINITION. Which commands name objects the block has: ports, windows, inputs, destinations, engines, contexts,
bases, tenants and functions within their ranges (R4-R6, R86, R125, R147, R172, R228, R344). -/

namespace Sys2Proof

/-- A register-port offset of 25 bits (R348). -/
def Instr.addrOk (addr : Nat) : Bool := decide (addr < 2 ^ 25)
/-- A window number: the steward's and one per tenant (R19). -/
def Instr.winOk (win : Nat) : Bool := decide (win < 257)
/-- A wired input (R39). -/
def Instr.inputOk (n : Nat) : Bool := decide (n < 2048)
/-- A message port (R60). -/
def Instr.portOk (p : Nat) : Bool := decide (p < 2)
/-- A destination: 512 targets, then 64 pools (R86). -/
def Instr.dstOk (d : Nat) : Bool := decide (d < 576)
/-- A target port (R86). -/
def Instr.targetOk (t : Nat) : Bool := decide (t < 512)
/-- An engine (R172). -/
def Instr.engineOk (e : Nat) : Bool := decide (e < 512)
/-- A base (R125). -/
def Instr.baseOk (n : Nat) : Bool := decide (n < 16)
/-- A context (R147). -/
def Instr.ctxOk (k : Nat) : Bool := decide (k < 4096)
/-- A tenant (R228). -/
def Instr.tenantOk (v : Nat) : Bool := decide (v < 256)
/-- A function of the ladder (table 0x18). -/
def Instr.funcOk (f : Nat) : Bool := decide (f < 5409)

/-- An arbiter instance exists: 48 SRAM banks (R213). -/
def ArbInst.ok : ArbInst → Bool
  | .outbound => true
  | .sram b => decide (b < 48)
  | .nvm => true

/-- A record has 16 words (R312). -/
def Readback.ok : Readback → Bool
  | .good => true
  | .bad w => decide (w < 16)

/-- A scrub find names a function (R295). -/
def ScrubFind.ok : ScrubFind → Bool
  | .clean => true
  | .corrected => true
  | .uncorrectable f _ _ => Instr.funcOk f
  | .disagreement _ => true
  | .parity => true

/-- A journal entry names objects the block has (R285). -/
def JEntry.ok : JEntry → Bool
  | .inst p st held dest seq _ => decide (p < 0x5A40) && decide (st < 5) && decide (held < 16) && Instr.dstOk dest && decide (seq < 65536)
  | .ctx k stat _ => Instr.ctxOk k && decide (stat < 2 ^ 14)
  | .base n stat _ _ => Instr.baseOk n && decide (stat < 512)
  | .lock n _ _ _ e => decide (n < 64) && Instr.engineOk e
  | .cnt t w e _ => decide (t < 256) && decide (w < 16) && decide (e < 2 ^ 24)
  | .cfg t w e _ => decide (t < 256) && decide (w < 16) && decide (e < 2 ^ 24)

/-- A frame's entries are well formed. -/
def Frame.ok (f : Frame) : Bool := f.entries.all JEntry.ok

/-- A command names objects the block has. -/
def Instr.wf : Instr → Bool
  | .registerWrite a _ _ => addrOk a
  | .setWrite a _ _ => addrOk a
  | .clrWrite a _ _ => addrOk a
  | .tglWrite a _ _ => addrOk a
  | .lowWordRead r => addrOk r.addr
  | .lowWordWrite a _ => addrOk a
  | .highWordWrite a _ => addrOk a
  | .postedWrite a _ _ => addrOk a
  | .postedWriteApply w => winOk w
  | .tblSelWrite w _ => winOk w
  | .tblDataWrite w k _ _ => winOk w && decide (k < 16)
  | .tableRead w _ => winOk w
  | .tableWrite w _ => winOk w
  | .tableAccessDone w => winOk w
  | .intTickDivWrite w _ => winOk w
  | .dpCfgWrite w n _ _ => winOk w && decide (n < 64)
  | .wiredInputChange n _ _ => inputOk n
  | .meiExpiry n => inputOk n
  | .intakeTick => true
  | .stormRefill n => inputOk n
  | .wireWakeLatch n _ => decide (n < 64)
  | .directPathNotify t => targetOk t
  | .doorbell p _ _ _ => portOk p
  | .doorbellNp p _ _ _ => portOk p
  | .completionMessageTransfer p _ => portOk p
  | .entryInsertion b => decide (b < 32)
  | .usageDecay => true
  | .sweeperVisit b d => decide (b < 32) && dstOk d
  | .speculativeOffer d => dstOk d
  | .confirmWindowEnd d _ => dstOk d
  | .claim t => targetOk t
  | .complete t _ => targetOk t
  | .claimTimerExpiry d => dstOk d
  | .targetDown t => targetOk t
  | .targetUp t => targetOk t
  | .completionWorkDone p => decide (p < 0x5A40)
  | .engineTake p => decide (p < 64)
  | .firstInstruction e _ => engineOk e
  | .completionAccept c => decide (c < 32)
  | .budget e => engineOk e
  | .selfTest e => engineOk e
  | .selfTestEnd e _ => engineOk e
  | .selfTestInterval => true
  | .nop e _ => engineOk e
  | .add e _ _ _ _ => engineOk e
  | .sub e _ _ _ _ => engineOk e
  | .adds e _ _ _ _ => engineOk e
  | .subs e _ _ _ _ => engineOk e
  | .and e _ _ _ _ => engineOk e
  | .or e _ _ _ _ => engineOk e
  | .xor e _ _ _ _ => engineOk e
  | .shl e _ _ _ _ => engineOk e
  | .shr e _ _ _ _ => engineOk e
  | .sra e _ _ _ _ => engineOk e
  | .min e _ _ _ _ => engineOk e
  | .max e _ _ _ _ => engineOk e
  | .abs e _ _ _ => engineOk e
  | .clmp e _ _ _ _ => engineOk e
  | .addi e _ _ _ _ => engineOk e
  | .addis e _ _ _ _ => engineOk e
  | .andi e _ _ _ _ => engineOk e
  | .ori e _ _ _ _ => engineOk e
  | .ldi e _ _ _ => engineOk e
  | .lui e _ _ _ => engineOk e
  | .shli e _ _ _ _ => engineOk e
  | .shri e _ _ _ _ => engineOk e
  | .srai e _ _ _ _ => engineOk e
  | .mul e _ _ _ _ _ _ => engineOk e
  | .mac e _ _ _ => engineOk e
  | .msu e _ _ _ => engineOk e
  | .accld e _ _ _ => engineOk e
  | .accadd e _ _ _ => engineOk e
  | .accrd e _ _ _ _ _ => engineOk e
  | .lds e _ _ _ => engineOk e
  | .ldsx e _ _ _ _ => engineOk e
  | .sts e _ _ _ => engineOk e
  | .stsx e _ _ _ _ => engineOk e
  | .out e _ _ _ _ => engineOk e
  | .outh e _ _ _ _ => engineOk e
  | .br e _ _ _ _ _ => engineOk e
  | .loop e _ _ _ => engineOk e
  | .loopr e _ _ _ _ => engineOk e
  | .lock e _ _ => engineOk e
  | .rel e _ => engineOk e
  | .raise e _ _ _ => engineOk e
  | .rds e _ _ _ => engineOk e
  | .endR e _ => engineOk e
  | .outboundTransfer _ _ => true
  | .grantDecision i b => i.ok && b.reqs.all fun r => decide (r < 8)
  | .windowBoundary i => i.ok
  | .burstStallTear => true
  | .grantWatchdogBite i => i.ok
  | .lockHoldBite n => decide (n < 64)
  | .mapSrc v => tenantOk v
  | .unmapSrc v => tenantOk v
  | .flush v => tenantOk v
  | .flushDone => true
  | .feedSample n _ _ _ _ => baseOk n
  | .missingIndex n => baseOk n
  | .feedLoss n => baseOk n
  | .zero n => baseOk n
  | .release n => baseOk n
  | .phsCfgWrite w n _ => winOk w && baseOk n
  | .launch n => baseOk n
  | .releaseOrdered n => baseOk n
  | .rebuildEnd n => baseOk n
  | .holdLimitExpiry _ => true
  | .ctxArm w k => winOk w && ctxOk k
  | .ctxDisarm w k => winOk w && ctxOk k
  | .ctxSquash w k => winOk w && ctxOk k
  | .restart _ => true
  | .retune _ => true
  | .swap => true
  | .swapTimeout => true
  | .swapCancel => true
  | .save => true
  | .nvmRead => true
  | .nvmProg => true
  | .nvmErase => true
  | .unlock => true
  | .protectionLock => true
  | .openBlock => true
  | .startSequence => true
  | .nvmBusyClear _ => true
  | .nvmTimeout => true
  | .eraseSuspend => true
  | .eraseResume => true
  | .mode _ => true
  | .applyTargets => true
  | .powerManagerRequest _ => true
  | .powerManagerRelease => true
  | .domainAnswer => true
  | .strikeAnswerTimeout => true
  | .repitch => true
  | .powerAck d => decide (d < 40)
  | .domainReturn d => decide (d < 40)
  | .i2cWake _ => true
  | .wakeIn _ => true
  | .linkUp => true
  | .linkDown => true
  | .journal f => f.ok
  | .snapshot f => f.ok
  | .heartbeat _ => true
  | .hello _ => true
  | .leaveFrame _ => true
  | .heartbeatPeriod => true
  | .sendLagExpiry => true
  | .partnerLoss => true
  | .fenceAck => true
  | .fenceTimeout => true
  | .takeoverOpen => true
  | .rejoin => true
  | .leave => true
  | .safe => true
  | .leaveSafe => true
  | .warm => true
  | .pcreq => true
  | .reinit f => funcOk f
  | .escalationTimerExpiry f => funcOk f
  | .targetReinitEnd t => targetOk t
  | .clockFault _ => true
  | .scrub f => f.ok
  | .crcRecheck _ => true
  | .recordAssembly back => back.ok
  | .sideBufferDrain => true
  | .recFreezeWrite w _ => winOk w
  | .groundsheetWrite => true
  | .armGs => true
  | .clearGs => true
  | .resume => true
  | .recFlush => true
  | .ckpt => true
  | .oldestRec w _ => winOk w
  | .newestRec w _ => winOk w
  | .readRec w _ => winOk w
  | .nextRec w _ => winOk w
  | .cursorDone w => winOk w
  | .pfail => true
  | .lastGaspWrite => true
  | .calendarSecond => true
  | .recCalWrite w _ => winOk w
  | .lanternPowerOnReset => true
  | .blkRstN _ _ => true
  | .nvmTransactionEnd => true
  | .journalSend => true
  | .slowCopyRefresh => true
  | .deviceStepEnd _ => true

end Sys2Proof
end

