-- ==== Sys2Proof/Machine/Outbound.lean ====
section
/-! DEFINITION. The outbound port, the credit arbiter and the hardware locks' watchdog (11, R300). -/

namespace Sys2Proof.Machine

/-! ## OUTBOUND_TRANSFER (R211, R222, R224, R225) -/

/-- The sequence a queue item commits, if it is one. -/
def State.itemSeq (s : State) : QItem → Option LSeq
  | .marker id => s.lseq id
  | .freed _ (.seq id) => s.lseq id
  | _ => none

/-- The first entry of a cluster's queue leaves it, and a stalled one enters (R183). -/
def State.popQueue (s : State) (c : Nat) : State :=
  (s.modCluster c fun x => { x with queue := x.queue.drop 1 }).refill c

/-- A write has transferred (R211). -/
def State.wrote (s : State) (w : OutWrite) : State := { s.bump 0x1C20 with outLast := some w, stallRun := 0 }

/-- A write of a burst transfers; the last ends its sequence COMMITTED (R222, R224). -/
def State.burstWrite (s : State) (c : Nat) (q : LSeq) : State :=
  let n : Nat := match q.ph with
    | .burst k => k
    | _ => 0
  let w := q.writes.getD n (0, 0)
  let last := decide (q.writes.length ≤ n + 1)
  let s := s.wrote { addr := w.1, data := w.2, req := c, burst := true, last := last }
  if last then (s.commitSeq q).popQueue c else s.setLseq { q with ph := .burst (n + 1) }

/-- A staging entry fails its check: the burst is torn, or ended with nothing applied before its first write, and the
error is a fault of the device (R224, R295; log 26). -/
def State.stagingFault (s : State) (q : LSeq) : State :=
  let q := match q.ph with
    | .burst _ => q
    | _ => { q with ph := .burst 0 }
  (s.faultSeq q).fault 0x01 fnDevice

/-- The head of a granted cluster's queue transfers (R202, R211, R222). -/
def State.clusterWrite (s : State) (c : Nat) (ecc : Bool) : State :=
  match (s.cluster c).queue with
  | [] => s
  | i :: _ => match s.itemSeq i with
    | some q => if ecc then s.stagingFault q else s.burstWrite c q
    | none => match i with
      | .plain _ a d => (s.wrote { addr := a, data := d, req := c, burst := false, last := false }).popQueue c
      | .freed _ (.write a d) => (s.wrote { addr := a, data := d, req := c, burst := false, last := false }).popQueue c
      | _ => s.popQueue c

/-- The Sentinel's next safe write transfers; after the last of a torn sequence its locks are freed (R225, R308). -/
def State.safeWrite (s : State) : State :=
  match s.safeQ with
  | [] => s
  | w :: rest =>
    let s := { s.wrote { addr := w.addr, data := w.data, req := 32, burst := true, last := w.last } with safeQ := rest }
    match w.seq with
    | some id =>
      if rest.any fun v => decide (v.seq = some id) then s
      else match s.lseq id with
        | some q => s.freeSeq q
        | none => s
    | none => s

/-- Whether the grant holder presents a write at this edge: OUT_VALID (R211, R250). The first safe write after a tear waits for the second
edge after it (R225). -/
def State.outValid (s : State) : Bool :=
  s.portUp && s.ldr.phase == .opened && (match (s.arb 0).holder with
    | some h => decide ((s.arb 0).since ≤ s.eng2) && (if h < 32 then !(s.cluster h).queue.isEmpty else !s.safeQ.isEmpty && decide (s.safeAt + 2 ≤ s.eng2))
    | none => false)

/-- Safe sets of entry into the safe state that wait at a port that has stayed not ready for 16 edges, R217's measure of a stalled
port, cannot be applied: they are counted and given up (R308; DESIGN CHOICE, log 102). -/
def State.giveUpSafe (s : State) : State :=
  if 16 ≤ s.stallRun ∧ s.safeQ.any SafeWrite.once = true then
    { s.bumpN 0x30B8 (s.safeQ.filter fun w => w.once && w.last).length with safeQ := s.safeQ.filter fun w => !w.once }
  else s

/-- The effect of OUTBOUND_TRANSFER: the present edge of the port (R211). -/
def State.outEdge (s : State) (ready ecc : Bool) : State :=
  if s.outValid = false ∨ s.outAt = some s.eng2 then s
  else
    let s := { s with outAt := some s.eng2 }
    let h := (s.arb 0).holder.getD 32
    if ready = false then
      let s := { s.bump 0x1C28 with stallRun := s.stallRun + 1 }
      if h < 32 then s else s.giveUpSafe
    else if h < 32 then s.clusterWrite h ecc else s.safeWrite

/-- OUTBOUND_TRANSFER (R211). -/
def execOutboundTransfer (ready ecc : Bool) (s : State) : Out := done s (s.outEdge ready ecc)

/-! ## GRANT_DECISION (R214-R219) -/

/-- Storage key of an arbiter instance. -/
def arbKey : ArbInst → Nat
  | .outbound => 0
  | .sram b => b + 1
  | .nvm => 49

/-- The arbiter's table entry of a requester (table 0x13). -/
def arbEntry (key r : Nat) : Nat := 64 * arbKind key + r

/-- The holder's held time up to unit `t` is charged (R214). -/
def State.chargeHeld (s : State) (key t : Nat) : State :=
  let a := s.arb key
  match a.holder with
  | some h =>
    if h < arbEmerg (arbKind key) then
      let n : Int := ((t + 1 - max a.since a.next : Nat) : Int)
      s.setArb key { a with credit := mSet (fun _ => 0) a.credit h (max (-32768) (s.credit key h - n)) }
    else s
  | none => s

/-- Whether a request is seen at unit `t`: raised before it (R215). -/
def State.seenAt (s : State) (key r t : Nat) : Bool := match s.reqAt key r with
  | some u => decide (u < t)
  | none => false

/-- The ordinary requesters that wait at unit `t`. -/
def State.waitersAt (s : State) (key t : Nat) : List Nat :=
  (List.range (arbEmerg (arbKind key))).filter fun r =>
    s.seenAt key r t && decide ((s.arb key).holder ≠ some r) && decide ((s.arb key).preempted ≠ some r)

/-- A waiting requester's wait is counted up to unit `t` (R219). -/
def State.countWait (s : State) (key r t : Nat) : State :=
  let u := (s.reqAt key r).getD t
  let a := s.arb key
  let from_ : Nat := match mFind a.wait r with
    | some (v, n) => if v = u then n else u
    | none => u
  (s.bumpTwN 0x13 (arbEntry key r) 3 (t + 1 - from_)).setArb key { a with wait := mPut a.wait r (u, t + 1) }

/-- The preempted requester, while it requests: it waits as well (R217, R219). -/
def State.preemptedAt (s : State) (key : Nat) : List Nat := match (s.arb key).preempted with
  | some p => if s.requests key p then [p] else []
  | none => []

/-- Every requester that waits at unit `t`, the preempted one and the emergency requester too (R219). -/
def State.allWaiters (s : State) (key t : Nat) : List Nat :=
  let em := arbEmerg (arbKind key)
  s.waitersAt key t ++ s.preemptedAt key ++ (if s.seenAt key em t && decide ((s.arb key).holder ≠ some em) then [em] else [])

/-- Every waiting requester's wait is counted, and the others' are forgotten (R219). -/
def State.countWaits (s : State) (key t : Nat) : State :=
  let l := s.allWaiters key t
  let s := s.modArb key fun a => { a with wait := mKeep (fun r => l.contains r || decide (0 < key ∧ key ≤ 48)) a.wait }
  forEach l (fun r s => s.countWait key r t) s

/-- A requester takes the grant from unit `t` + 1 (R215, R219). -/
def State.grant (s : State) (key r t : Nat) : State :=
  let u := (s.reqAt key r).getD t
  let e := arbEntry key r
  let s := s.bumpTw 0x13 e 2
  let s := s.setTw 0x13 e 4 (wd (max (fld (s.tw 0x13 e 4) 0 24) (min (t + 1 - u) 0xFFFFFF)))
  s.modArb key fun a => { a with holder := some r, since := t + 1, wait := mErase a.wait r }

/-- The candidate of unit `t` (R215). -/
def State.candidate (s : State) (key : Nat) : List Nat → Option Nat
  | [] => none
  | r :: l => match s.candidate key l with
    | none => some r
    | some q => if s.aheadOf key q r then some q else some r

/-- A preempted holder requests on: its wait is counted from unit `t` + 1, and it is no new wait (R217, R219). -/
def State.preemptWait (s : State) (key t h : Nat) : State :=
  s.modArb key fun a => { a with wait := mPut a.wait h (if 0 < key ∧ key ≤ 48 then t else (s.reqAt key h).getD t, t + 1) }

/-- The emergency requester takes the grant from unit `t` + 1 (R217). -/
def State.grantEmerg (s : State) (key t : Nat) (back : Option Nat) : State :=
  let s := ((s.grant key (arbEmerg (arbKind key)) t).bump 0x1C2C).modArb key fun a => { a with preempted := back }
  match back with
  | some h => s.preemptWait key t h
  | none => s

/-- The unit of an SRAM bank: the real-time lane takes it when it wants it and has not taken the three before, and the holder makes an
access in a unit the lane leaves (R213). -/
def State.countAccess (s : State) (key t : Nat) (lane : Bool) : State :=
  if 0 < key ∧ key ≤ 48 then
    let a := s.arb key
    let rt := lane && !((List.range 3).all fun i => decide (i + 1 ≤ t) && a.lane.contains (t - 1 - i))
    let n := if a.holder.isSome ∧ a.holder ≠ some 7 then t + 1 - max a.since a.next - b2n rt else 0
    s.setArb key { a with lane := (if rt then t :: a.lane else a.lane).filter (fun u => decide (t < u + 3)), acc := a.acc + n }
  else s

/-- Whether the holder keeps its request: the one it was granted (R216). A background requester of an SRAM bank drops it after 16
accesses (R213). -/
def State.holds (s : State) (key : Nat) (h : Nat) (reqs : List Nat) : Bool :=
  if 0 < key ∧ key ≤ 48 then
    reqs.contains h && !(s.arb key).masked.contains h && (decide (h = 7) || decide ((s.arb key).acc < 16))
  else if key = 49 then s.ldr.transOn
  else match s.reqAt key h with
    | some u => decide (u < (s.arb key).since)
    | none => false

/-- Whether a write stands at the outbound port past unit `t`: one that OUT_READY = 0 has kept from its transfer, or whose edge has
not been seen (R211). -/
def State.writeStands (s : State) (t : Nat) : Bool := if s.outAt = some t then decide (0 < s.stallRun) else s.outValid

/-- The grant at unit `t` + 1 once the holder's claim on it is known: `keep` is the holder that keeps its request (R215,
R217). A write that stands at the port, a burst that streams and a transaction of the NVM port are not cut short (R211, R217, R326). -/
def State.decideGrant (s : State) (key t : Nat) (keep : Option Nat) : State :=
  let em := arbEmerg (arbKind key)
  let a := s.arb key
  let inBurst : Bool := match keep with
    | some h => (decide (key = 0) && (s.bursting h || s.writeStands t)) || (decide (key = 49) && s.ldr.transOn)
    | none => false
  if s.seenAt key em t && decide (keep ≠ some em) && !inBurst then s.grantEmerg key t keep
  else if keep.isSome then s
  else match a.preempted.filter fun p => s.requests key p with
    | some p => s.modArb key fun a => { a with holder := some p, since := t + 1, preempted := none, wait := mErase a.wait p }
    | none =>
      let s' := s.modArb key fun a => { a with holder := none, preempted := none }
      match s.candidate key (s.waitersAt key t) with
      | some r => (s'.grant key r t).modArb key fun a => { a with acc := 0 }
      | none => s'

/-- The requests of an SRAM bank, as the decision names them, come to those it named before, each raised until it is granted (R216;
log 11). -/
def State.nameReqs (s : State) (key t : Nat) (reqs : List Nat) : State :=
  if 0 < key ∧ key ≤ 48 then
    s.modArb key fun a =>
      { a with wait := reqs.foldl (fun m r =>
          if a.holder = some r ∧ r ∈ reqs then m else mPut m r ((mFind a.wait r).getD (t - 1, t - 1))) a.wait }
  else s

/-- The effect of GRANT_DECISION at unit `t` of an instance (R214-R219). -/
def State.decideAt (s : State) (key t : Nat) (reqs : List Nat) (lane : Bool) : State :=
  if t < (s.arb key).next then s
  else
    let s := (((s.chargeHeld key t).countAccess key t lane).nameReqs key t reqs).countWaits key t
    let keep := (s.arb key).holder.filter fun h => s.holds key h reqs
    (s.decideGrant key t keep).modArb key fun a => { a with next := t + 1 }

/-! ## WINDOW_BOUNDARY (R214) -/

/-- A counter at a boundary: its weight of the new window is added, and a surplus is lost (R214). -/
def State.refillCredit (s : State) (key r : Nat) : State :=
  let w := s.awWeight (arbKind key) r
  let c := s.credit key r
  s.modArb key fun a =>
    { a with weight := mSet (fun r => weightReset (arbEntry key r)) a.weight r w,
             credit := mSet (fun _ => 0) a.credit r (min (c + (w : Int)) (w : Int)) }

/-- The effect of WINDOW_BOUNDARY (R214). -/
def State.windowEnd (s : State) (key : Nat) : State :=
  let i := arbKind key
  let a := s.arb key
  if a.boundary + arbWindow i ≤ s.unit i then
    let s := forEach (List.range (arbEmerg i)) (fun r s => s.refillCredit key r) s
    s.modArb key fun a => { a with boundary := a.boundary + arbWindow i }
  else s

/-- WINDOW_BOUNDARY (R214). -/
def execWindowBoundary (i : ArbInst) (s : State) : Out := done s (if i.ok = true then s.windowEnd (arbKey i) else s)

/-! ## BURST_STALL_TEAR (R217) -/

/-- The burst the grant holder is streaming, from the edge at which its first write is shown. -/
def State.streaming (s : State) : Option (Nat × LSeq) := match (s.arb 0).holder with
  | some h =>
    if h < 32 ∧ (s.bursting h = true ∨ s.outValid = true) then
      ((s.cluster h).queue.head?.bind s.itemSeq).map fun q => (h, q)
    else none
  | none => none

/-- The Sentinel takes the outbound grant at once, from the next unit (R217, R220). -/
def State.seize (s : State) (key t : Nat) (back : Option Nat) : State := (s.chargeHeld key t).grantEmerg key t back
  |> (·.modArb key fun a => { a with next := max a.next (t + 1) })

/-- The effect of BURST_STALL_TEAR (R217). -/
def State.stallTear (s : State) : State :=
  match s.streaming with
  | some (h, q) =>
    if 16 ≤ s.stallRun ∧ s.seenAt 0 32 s.eng2 then
      (({ s with stallRun := 0 }).seize 0 s.eng2 (some h)).faultSeq q
    else s
  | none => s

/-- BURST_STALL_TEAR (R217). -/
def execBurstStallTear (s : State) : Out := done s s.stallTear

/-! ## The grant watchdog (R220, R300) -/

/-- The grant limit of an instance, in ENG_CLK cycles; 0 disables (the table SNT_WD0). -/
def State.grantLimit (s : State) (key : Nat) : Nat :=
  64 * (if key = 0 then fld (s.reg 0x3010) 0 12 else fld (s.reg 0x3010) 16 12)

/-- A bite of the grant watchdog on the outbound port or an SRAM bank: the Sentinel takes the grant, the holder is masked,
a burst that held it is torn (R220, R300). -/
def State.grantBite (s : State) (key : Nat) : State :=
  let a := s.arb key
  match a.holder with
  | some h =>
    if h < arbEmerg (arbKind key) ∧ s.grantLimit key ≠ 0 ∧ a.since + s.grantLimit key ≤ s.eng2 then
      let torn := if key = 0 then s.streaming else none
      let s := { s.bump 0x1C30 with stallRun := if key = 0 then 0 else s.stallRun }
      let s := (s.seize key s.eng2 none).modArb key fun a => { a with masked := a.masked ++ [h] }
      let s := match torn with
        | some (_, q) => s.faultSeq q
        | none => s
      s.bite 0x0D (if key = 0 then fnCluster h else fnDevice)
    else s
  | none => s

/-! ## LOCK_HOLD_BITE (R300, R301) -/

/-- A lock-hold bite on a sequence whose engine owns it: a fault of the engine with reason LOCK_HOLD (R184, R300). An
engine that runs nothing has no instance to end. -/
def State.lockHoldEngine (s : State) (q : LSeq) : State :=
  let e := q.engine
  match (s.eng e).st with
  | .run => s.engFault e 0xC
  | .load => s.engFault e 0xC
  | _ => ((s.faultSeq q).noteFault e 0xC).reportFault e 0xC false

/-- The effect of LOCK_HOLD_BITE (R300). -/
def State.lockHold (s : State) (n : Nat) : State :=
  let lim := fld (s.reg 0x3014) 0 16
  let l := s.lock n
  match l.owner.bind s.lseq with
  | some q =>
    if lim ≠ 0 ∧ l.acq + 32 * lim ≤ s.eng2 then
      match q.ph with
      | .torn => s
      | .ending _ => s
      | .occHeld o => match mFind s.occs o with
        | some x => (s.squash o 6).bite 0x0E (fnCtx x.ctx)
        | none => s
      | _ => match s.seqCtx q with
        | some k => (s.faultSeq q).bite 0x0E (fnCtx k)
        | none => s.lockHoldEngine q
    else s
  | none => s

/-- LOCK_HOLD_BITE (R300). -/
def execLockHoldBite (n : Nat) (s : State) : Out := done s (if n < 64 then s.lockHold n else s)

end Sys2Proof.Machine
end

