-- ==== Sys2Proof/Machine/Tenancy.lean ====
section
/-! DEFINITION. Tenancy: the mapping commands and FLUSH, and what a grant lets a tenant reach (12). -/

namespace Sys2Proof.Machine

/-! ## Grants (R232-R238) -/

/-- Whether class and priority lie in a tenant's band (R238). -/
def State.inBand (s : State) (v cls prio : Nat) : Bool :=
  let b := s.ten v 1
  decide (orOne (fld b 16 2) ≤ cls) && decide (cls ≤ fld b 18 2) && decide (fld b 0 8 ≤ prio) && decide (prio ≤ fld b 8 8)

/-- TEN_MARG.virt and TEN_MARG.phys. -/
def State.margVirt (s : State) : Nat := fld (s.reg 0x2000) 16 15
def State.margPhys (s : State) : Nat := fld (s.reg 0x2000) 0 15

/-! ## Mapping commands (R233) -/

/-- The slot of a tenant's VSN, when it is in range. -/
def State.slotOf (s : State) (v virt : Nat) : Option Nat :=
  let j := fld (s.ten v 2) 0 15 + virt
  if virt < s.vcnt v ∧ j ≤ 32767 then some j else none

/-- Whether a valid slot of the source map names a PSN (R233). -/
def State.slotNames (s : State) (p : Nat) : Bool :=
  s.tbl.any fun x => decide (x.1 / 0x80000 = 0x15) && bit x.2 15 && decide (fld x.2 0 15 = p)

/-- The status a MAP_SRC ends with (the table "Mapping command status"). -/
def State.mapStatus (s : State) (v virt phys : Nat) : Nat :=
  match s.slotOf v virt with
  | none => 1
  | some j =>
    if psnEnd ≤ phys then 1
    else if bit (s.tw 0x15 (j / 16) (j % 16)) 15 ∨ s.slotNames phys then 2
    else if (s.src phys).st ≠ .idle then 3
    else if s.inBand v (s.cls phys) (s.prio phys) = false then 4
    else 0

/-- The effect of MAP_SRC (R233). -/
def State.mapSrc (s : State) (v : Nat) : State :=
  let virt := s.margVirt
  let phys := s.margPhys
  let st := s.mapStatus v virt phys
  let s := { s with mapStat := st }
  match s.slotOf v virt with
  | some j =>
    if st = 0 then
      ((s.setTw 0x15 (j / 16) (j % 16) (wd (phys + 0x8000))).setTw 0x01 phys 4 (wd (at_ virt 0 15 + at_ v 16 8))).touched
    else s
  | none => s

/-- The status an UNMAP_SRC ends with. -/
def State.unmapStatus (s : State) (v virt : Nat) : Nat :=
  match s.slotOf v virt with
  | none => 1
  | some j =>
    let e := s.tw 0x15 (j / 16) (j % 16)
    if bit e 15 = false then 2 else if (s.src (fld e 0 15)).st ≠ .idle then 3 else 0

/-- The effect of UNMAP_SRC (R233). -/
def State.unmapSrc (s : State) (v : Nat) : State :=
  let virt := s.margVirt
  let st := s.unmapStatus v virt
  let s := { s with mapStat := st }
  match s.slotOf v virt with
  | some j =>
    if st = 0 then
      let p := fld (s.tw 0x15 (j / 16) (j % 16)) 0 15
      ((s.setTw 0x15 (j / 16) (j % 16) 0).setTw 0x01 p 4 (wd p)).touched
    else s
  | none => s

/-- The effect of FLUSH: TEN_MSTAT.busy stands until FLUSH_DONE, which shows its status (R233, R243). -/
def State.flushCmd (s : State) (v : Nat) : State :=
  s.flushTenant v

/-- What TEN_MCMD does with a word: its op, for its tenant (the table TEN_MCMD). -/
def State.mapOp (s : State) (w : Word) : State :=
  let v := fld w 8 8
  match fld w 0 4 with
  | 1 => s.mapSrc v
  | 2 => s.unmapSrc v
  | 3 => s.flushCmd v
  | _ => s

end Sys2Proof.Machine
end

