-- ==== Sys2Proof/Machine/Nvm.lean ====
section
/-! DEFINITION. The NVM memory as the port's operations change it: sectors, remapping, blank checks, programs, erases,
protection, and the steps of a job (R246, R260-R267, R334). -/

namespace Sys2Proof.Machine

/-- Change the loader's state. -/
def State.modLdr (s : State) (f : Ldr → Ldr) : State := { s with ldr := f s.ldr }

/-- Whether the memory is NOR: no header accepted counts as NOR (R260). -/
def State.isNor (s : State) : Bool := (s.ldr.hdr.getD {}).nor

/-- Free values (log 5). -/
def State.freeWords : Nat → State → State × List Word
  | 0, s => (s, [])
  | n + 1, s =>
    let r := State.freeWords n s.freeNext
    (r.1, s.freeVal :: r.2)

/-! ## Bytes -/

/-- Bytes of the memory from a physical address on. -/
def putBytes : Nat → List Byte → SMap Byte → SMap Byte
  | _, [], m => m
  | a, b :: t, m => putBytes (a + 1) t (mSet (fun _ => 0xFF#8) m a b)

/-- Bytes are programmed at an address, each where an access to it goes (R262). -/
def State.nvmPut (s : State) (a : Nat) (bs : List Byte) : State :=
  let put := fun (m : SMap Byte) (x : Nat × Byte) => mSet (fun _ => 0xFF#8) m (s.nvmPhys (a + x.1)) x.2
  s.modLdr fun l => { l with nvm := ((List.range bs.length).zip bs).foldl put l.nvm }

/-- The spec does not say what an aborted program or erase leaves: `n` bytes of the memory take free values (log 5). -/
def State.nvmTear (s : State) (p n : Nat) : State :=
  let r := State.freeWords (cdiv n 4) s
  r.1.modLdr fun l => { l with nvm := putBytes p ((bytesOf r.2).take n) l.nvm }

/-- A physical sector is erased. -/
def State.nvmWipe (s : State) (p : Nat) : State :=
  s.modLdr fun l => { l with nvm := l.nvm.filter fun x => decide (x.1 < p) || decide (p + s.sectSize ≤ x.1) }

/-! ## Protection (R266) -/

/-- Whether [a, a + n) meets a sector range. -/
def meets (a n lo len : Nat) : Bool := decide (a < lo + len) && decide (lo < a + n)

/-- Whether an access of `n` bytes at `a` is refused PROTECTED. -/
def State.protectedAt (s : State) (a n : Nat) : Bool :=
  (List.range 4).any fun k => match s.protRec k with
    | some r =>
      !s.ldr.unl.contains k &&
      (meets a n 0 (2 * s.sectSize) || (List.range 11).any fun i =>
        nfld (leNat (r.take 2)) i 1 == 1 && (match s.region i with
          | some (b, len) => meets a n b len
          | none => false))
    | none => false

/-! ## The spare pool and the bad-sector table (R260-R262) -/

/-- Sectors that may serve as replacements: the spare pool's, and those released to it (R260, R262). -/
def State.spares (s : State) : List Nat :=
  (match s.region 10 with
    | some (b, n) => (List.range (n / s.sectSize)).map fun i => b + i * s.sectSize
    | none => []) ++ s.ldr.released

/-- The next free sector of the spare pool: one that replaces nothing and is not itself bad. -/
def State.nextSpare (s : State) : Option Nat :=
  s.spares.find? fun x => !(s.ldr.remap.any fun y => decide (y.2 = x)) && !s.ldr.bad.contains x &&
    ((mFind s.ldr.remap x).isNone || s.ldr.released.contains x)

/-- The first free entry of the bad-sector table. -/
def State.badSlot (s : State) : Option Nat := match s.region 8 with
  | some (b, n) => ((List.range (n / 16)).map fun i => b + 16 * i).find? fun a => (s.nvmBytes a 16).all (· == 0xFF#8)
  | none => none

/-- A bad-sector table entry (the table "Bad-sector table entry"). -/
def badEntry (sect repl reason : Nat) : List Byte :=
  let b := leBytes 4 sect ++ leBytes 4 repl ++ [BitVec.ofNat 8 reason, 0xFF#8, 0xFF#8, 0xFF#8]
  b ++ wordBytes (crc32 b)

/-- A write that needs a remap fails: reported to the Sentinel as an NVM fault (R261, R262). -/
def State.nvmFault (s : State) : State := s.fault 0x10 fnDevice

/-- The entry that says that a sector is bad and has no replacement. -/
def badNone : Nat := 0xFFFFFFFF

/-- A sector is replaced in the working copy (R260-R262). The steps that follow append its entry, and write the data to the same place
of the replacement. `out` tells that the sector that stood there is itself bad: a replacement that failed gets an entry of its own
(log 27). -/
def State.remapSect (s : State) (a reason : Nat) (data : List Byte) (out : Bool) : State × List NvmStep :=
  let sect := s.sectOf a
  let old := s.nvmPhys sect
  match s.nextSpare, s.badSlot with
  | some r, some _ =>
    let s := s.record 0x05 0 reason [wd sect, wd r]
    let lost := out && decide (old ≠ sect)
    (s.modLdr fun l =>
      { l with remap := mPut l.remap sect r, released := l.released.filter (· ≠ r), bad := if lost then l.bad ++ [old] else l.bad },
     (if lost then [.entry (badEntry old ((mFind s.ldr.remap old).getD badNone) reason)] else []) ++ [.entry (badEntry sect r reason)]
       ++ (if data.isEmpty then [] else [.prog a data]))
  | _, _ =>
    (((s.record 0x05 0 reason [wd sect, wd badNone]).nvmFault).modLdr fun l =>
      { l with bad := if out && !l.bad.contains old then l.bad ++ [old] else l.bad }, [])

/-- A failure in a sector of the bad-sector table: recorded as R313 has it for R261, and reported to the Sentinel; the sector is never
remapped (R261, R313). -/
def State.badTableFault (s : State) (a reason : Nat) : State := (s.record 0x05 0 reason [wd (s.sectOf a), wd badNone]).nvmFault

/-- Whether an address lies in the bad-sector table. -/
def State.inBadTable (s : State) (a : Nat) : Bool := match s.region 8 with
  | some (b, n) => decide (b ≤ a) && decide (a < b + n)
  | none => false

/-- A sector is newly bad: counted and shown (R261). -/
def State.countBad (s : State) (p : Nat) : State := (s.bump 0x246C).setReg 0x2428 (wd p)

/-- The sector of an address is newly bad, and replaced; one of the bad-sector table is recorded and reported (R261). -/
def State.badSect (s : State) (a reason : Nat) (data : List Byte) : State × List NvmStep :=
  if s.inBadTable a then (s.badTableFault a reason, [])
  else (s.countBad (s.nvmPhys (s.sectOf a))).remapSect a reason data true

/-- A physical sector whose erase failed is newly bad: the sector it stands for is replaced, one that is already replaced keeps its
replacement under the reason ERASE, and one that stands for none is bad for good (R261, R262; log 27). -/
def State.badErase (s : State) (p : Nat) : State × List NvmStep :=
  if s.inBadTable p then (s.badTableFault p 2, [])
  else
    let s := s.countBad p
    match s.ldr.remap.find? fun x => decide (x.2 = p) with
    | some x => s.remapSect x.1 2 [] true
    | none => match mFind s.ldr.remap p with
      | some r => (s.record 0x05 0 2 [wd p, wd r], [.entry (badEntry p r 2)])
      | none =>
      if s.spares.contains p then
        ((s.record 0x05 0 2 [wd p, wd badNone]).modLdr fun l => { l with bad := l.bad ++ [p] }, [.entry (badEntry p badNone 2)])
      else s.remapSect p 2 [] true

/-- The entry that returns a refused sector to the spare pool, once it has been erased and found blank (R260; log 27). -/
def State.releaseStep (s : State) (p : Nat) : NvmStep := .entry (badEntry p ((mFind s.ldr.remap p).getD badNone) 6)

/-! ## Programs and erases (R246, R260, R261, R334) -/

/-- The reason code of a failed program: PROGRAM for a reported failure, VERIFY for a mismatch. -/
def progReason : NvmRes → Nat
  | .mismatch => 4
  | _ => 3

/-- Whether the blank check refuses a program (R260). -/
def State.blankFails (s : State) (a : Nat) (data : List Byte) : Bool :=
  s.isNor && !((s.nvmBytes a data.length).all (· == 0xFF#8))

/-- An erase of a physical sector is issued: counted in the wear table, and it runs (R263, R334). -/
def State.startErase (s : State) (p : Nat) : State :=
  let n := p / s.sectSize
  let s := if n < 4096 then s.bumpTw 0x1B (n / 16) (n % 16) else s.bump 0x3444
  s.modLdr fun l => { l with erase := some { addr := p, runFrom := s.eng2, susp := false }, requeue := l.requeue.filter (· ≠ p) }

/-- What runs in the memory is aborted: counted, and its place is left in a state the spec does not give. The sector of an aborted erase is
marked for a full erase until one is issued, by a job that still asks for it or after the next Open (R249, R265). -/
def State.abortNvm (s : State) : State :=
  let s := onlyIf (s.ldr.erase.isSome || s.ldr.progBusy.isSome) (·.bump 0x2468) s
  let s := match s.ldr.erase with
    | some e => s.nvmTear e.addr s.sectSize
    | none => s
  let s := match s.ldr.progBusy with
    | some (p, n) => s.nvmTear p n
    | none => s
  s.modLdr fun l =>
    { l with erase := none, progBusy := none,
             requeue := match l.erase with
               | some e => l.requeue.filter (· ≠ e.addr) ++ [e.addr]
               | none => l.requeue }

/-! ## Jobs (R213, R246) -/

/-- A job replaced, or dropped. -/
def putJob (old : NvmJob) (new : Option NvmJob) : List NvmJob → List NvmJob
  | [] => []
  | j :: t => if j = old then (match new with
      | some k => k :: t
      | none => t) else j :: putJob old new t

/-- The holder of the NVM port whose transaction runs. -/
def State.nvmHolder (s : State) : Option Nat :=
  let a := s.arb 49
  if s.ldr.transOn ∧ a.since ≤ s.unit 2 then a.holder else none

/-- The job whose erase runs: the first with an erase of that sector at its head. -/
def State.erasingJob (s : State) : Option NvmJob := match s.ldr.erase with
  | some e => s.ldr.jobs.find? fun j => match j.steps with
    | .erase p :: _ => decide (p = e.addr)
    | _ => false
  | none => none

/-- A queue of steps that programs bytes at an address, page by page (R246, R260). `n` bounds the number of pages. -/
def progSteps (page : Nat) : Nat → Nat → List Byte → List NvmStep
  | 0, _, _ => []
  | n + 1, a, bs =>
    if bs.isEmpty then []
    else
      let k := page - a % page
      .prog a (bs.take k) :: progSteps page n (a + k) (bs.drop k)

/-- The page a program may not cross; FRAM and MRAM have none (lpage = 0). -/
def State.pageSize (s : State) : Nat := let p := (s.ldr.hdr.getD {}).lpage
  if p = 0 then 0x10000 else 2 ^ p

/-- The steps that program bytes at an address. -/
def State.progAt (s : State) (a : Nat) (bs : List Byte) : List NvmStep := progSteps s.pageSize (bs.length + 1) a bs

/-- The steps that erase the sectors of a range of NOR. -/
def State.eraseAt (s : State) (a n : Nat) : List NvmStep :=
  (List.range (cdiv n s.sectSize)).map fun i => .erase (s.nvmPhys (s.sectOf a + i * s.sectSize))

/-- The steps that leave a range blank: erases on NOR, programs of 0xFF where the memory has no erase (R260; DESIGN CHOICE, log 98). -/
def State.blankSteps (s : State) (a n : Nat) : List NvmStep :=
  if s.isNor then s.eraseAt a n else s.progAt a (List.replicate n 0xFF#8)

end Sys2Proof.Machine
end

