-- ==== Sys2Proof/Machine/Recorder.lean ====
section
/-! DEFINITION. The event recorder: assembly, the Flysheet and its side buffer, the Groundsheet and its clear, flushes,
last-gasp registers, the calendar, counter checkpoints and cursors (17). -/

namespace Sys2Proof.Machine

/-- House source 0x5A13, while REC_CFG.hraise = 1 (R336). -/
def State.recHouse (s : State) : State := onlyIf (bit (s.reg 0x3400) 0) (·.house 0x5A13) s

/-- REC_FREEZE.frz. -/
def State.frozen (s : State) : Bool := bit (s.reg 0x3408) 0

/-- The records of area 0, circulating: the Flysheet, the degraded area, the side buffer (R320). -/
def State.area0 (s : State) : List Rec := s.log.fly ++ s.log.area ++ s.log.side

/-! ## Assembly (R312, R316-R319, R328, R333) -/

/-- Whether one rseq comes before another: they count modulo 2^32, and what the areas hold lies within half of that (R316; DEDUCED,
log 130). -/
def serLt (a b : Word) : Bool := decide (a ≠ b) && decide ((b - a).toNat < 2 ^ 31)

/-- The record with the lowest rseq that a test selects. -/
def lowest (ok : Rec → Bool) (l : List Rec) : Option Rec :=
  l.foldl (fun m r =>
    if ok r then match m with
      | some q => if serLt r.rseq q.rseq then some r else some q
      | none => some r
    else m) none

/-- The record with the highest rseq that a test selects. -/
def highest (ok : Rec → Bool) (l : List Rec) : Option Rec :=
  l.foldl (fun m r =>
    if ok r then match m with
      | some q => if serLt q.rseq r.rseq then some r else some q
      | none => some r
    else m) none

/-- Whether the Groundsheet writer copies records: not while a clear runs, nor after a power-fail flush until the next Open, nor once
it holds 1,024 or has no empty slot left (R321, R322, R324). -/
def State.gsWriting (s : State) : Bool :=
  bit (s.reg 0x3400) 1 && (s.region 5).isSome && !s.log.gsStop && !s.log.clearing && decide (s.log.gsN < 1024) &&
    decide (s.log.gsAt < 1024)

/-- A record leaves area 0: one the Groundsheet writer has not copied is lost to it (R321). -/
def State.leftArea (s : State) (r : Rec) : State :=
  onlyIf (s.gsWriting && !serLt r.rseq s.log.gsNext) (·.bump 0x342C) s

/-- A record enters a ring of `n`, oldest first; it overwrites the oldest (R318, R328). -/
def ringPut (n : Nat) (l : List Rec) (r : Rec) : List Rec × Option Rec :=
  if l.length < n then (l ++ [r], none) else (l.drop 1 ++ [r], l.head?)

/-- A record enters the Flysheet, or the degraded area with dg = 1 (R318, R328). -/
def State.pushArea (s : State) (r : Rec) : State :=
  let p := if s.log.degr then ringPut 512 s.log.area { r with flags := r.flags ||| 4 } else ringPut 8192 s.log.fly r
  let s := match p.2 with
    | some o => s.leftArea o
    | none => s
  s.modLog fun l => if l.degr then { l with area := p.1 } else { l with fly := p.1, flyAt := (l.flyAt + 1) % 8192 }

/-- A record assembled at once while the side buffer drains goes behind those it holds; a full buffer makes room (R319, R326;
DESIGN CHOICE, log 132). -/
def State.pushDrain (s : State) (r : Rec) : State :=
  let s := match (if s.log.side.length < 256 then none else s.log.side.head?) with
    | some o => (s.pushArea o).modLog fun l => { l with side := l.side.drop 1 }
    | none => s
  s.modLog fun l => { l with side := l.side ++ [r] }

/-- An assembled record is written: to the side buffer while frozen or draining, else to its area (R319). -/
def State.pushRec (s : State) (r : Rec) : State :=
  if s.frozen then
    if s.log.side.length < 256 then s.modLog fun l => { l with side := l.side ++ [r] }
    else
      let first := !s.log.frzDropped
      onlyIf first (·.recHouse) ((s.bump 0x3428).modLog fun l => { l with frzDropped := true })
  else if s.log.drain then s.pushDrain r
  else s.pushArea r

/-- A record takes the next rseq and the open epoch; the tenant it names counts it (R316, R333). A CLEAR record's rseq was taken as its
clear began (log 29). -/
def State.stampRec (s : State) (r : Rec) : State × Rec :=
  let clear := decide (r.kind = 0x11)
  let r := { r with rseq := if clear then r.rseq else s.log.rseq, epoch := s.ldr.epoch }
  let s := onlyIf (!clear) (·.modLog fun l => { l with rseq := l.rseq + 1 }) s
  (onlyIf (r.flags % 2 == 1) (·.bumpTw64 0x1A r.tenant 4) s, r)

/-- The STORM record of a tally (R313, R317; log 28: it carries the time of the last folded request). -/
def stormRec (kind : Nat) (t : Tally) : Rec :=
  { kind := 0x10, time := t.time, sub := t.sub, object := t.first, reason := kind,
    d := [wd t.n, wd t.last, lo32 t.time, hi32 t.time, t.sub] }

/-- Once the queue holds 32 entries or fewer, a STORM record enters it for each kind with a tally (R317). -/
def State.placeStorms (s : State) : State :=
  if s.log.reqs.length ≤ 32 then
    let ts := s.log.tally
    let s := s.modLog fun l => { l with tally := [] }
    forEach ts (fun t s =>
      (((s.modLog fun l => { l with reqs := l.reqs ++ [stormRec t.1 t.2] }).bump 0x3424).recHouse)) s
  else s

/-- The Flysheet fails at word `w` of the place it writes: the record goes to the last-gasp registers, as far as the lantern domain holds it;
one that stood in the place is lost; and the degraded area begins with a DEGRADED record (R328, R329; log 131). -/
def State.flyFails (s : State) (r : Rec) (w : Nat) : State :=
  let s := match (if s.log.fly.length < 8192 then none else s.log.fly.head?) with
    | some o => (s.leftArea o).modLog fun l => { l with fly := l.fly.drop 1 }
    | none => s
  let s := (s.lastGasp { s.gaspRec r.kind r.reason [] with time := r.time }).modLog fun l => { l with degr := true, asmRank := none }
  let s := (s.bump 0x3438).recHouse
  let d : Rec := { kind := 0x12, time := s.recTime, sub := s.recSub, d := [wd (64 * s.log.flyAt + 4 * w)] }
  let (s, d) := s.stampRec d
  (s.pushArea d).fault 0x01 fnDevice

/-- A record is assembled and written; `back` is what its read-back finds (R316, R328). -/
def State.assemble (s : State) (r : Rec) (back : Readback) : State :=
  let (s, r) := s.stampRec r
  match back with
  | .good => s.pushRec r
  | .bad w => if s.frozen = false ∧ s.log.drain = false ∧ s.log.degr = false then s.flyFails r w else s.pushRec r

/-- A CLEAR record has been assembled: it goes to slot 0, and the writer is to resume with the records assembled after it (R324). -/
def State.clearAssembled (s : State) (r : Rec) : State :=
  s.addJob { req := 1, use := .gsFirst s.log.rseq, steps := s.progAt (((s.region 5).getD (0, 0)).1 + 2 * s.sectSize) r.bytes }

/-- What the assembler takes next: a clear's CLEAR record, else the queue's head (R316, R324). -/
def State.asmNext (s : State) : Option Rec := s.log.clearQ.or s.log.reqs.head?

/-- What it takes is taken. -/
def Recorder.asmTake (l : Recorder) : Recorder :=
  if l.clearQ.isSome then { l with clearQ := none } else { l with reqs := l.reqs.drop 1 }

/-- The effect of RECORD_ASSEMBLY (R316, R317). A drain goes first, unless a freeze pauses it (R319). -/
def State.assembleNext (s : State) (back : Readback) : State :=
  match s.asmNext with
  | none => s
  | some r =>
    if s.log.asmAt + 8 ≤ s.eng2 ∧ s.domStill 0 = false ∧ ¬(s.log.drain ∧ s.frozen = false) then
      let clear := s.log.clearQ.isSome
      let s := s.modLog fun l =>
        { l.asmTake with asmAt := s.eng2, asmRank := if s.frozen then none else some s.rank,
                         asmOut := if l.degr then (if l.area.length < 512 then none else l.area.head?)
                                   else if l.fly.length < 8192 then none else l.fly.head? }
      let s := s.assemble r back
      (onlyIf clear (·.clearAssembled { r with epoch := s.ldr.epoch }) s).placeStorms
    else s

/-- RECORD_ASSEMBLY (R316). -/
def execRecordAssembly (back : Readback) (s : State) : Out := done s (s.assembleNext back)

/-- The effect of SIDE_BUFFER_DRAIN (R319). -/
def State.drainSide (s : State) : State :=
  if s.log.drain ∧ s.frozen = false ∧ s.log.sideAt + 8 ≤ s.eng2 ∧ s.domStill 0 = false then
    match s.log.side with
    | r :: rest =>
      let s := (s.pushArea r).modLog fun l => { l with side := rest, sideAt := s.eng2 }
      if rest.isEmpty then s.modLog fun l => { l with drain := false } else s
    | [] => s.modLog fun l => { l with drain := false }
  else s

/-- SIDE_BUFFER_DRAIN (R319). -/
def execSideBufferDrain (s : State) : Out := done s s.drainSide

/-- A record that was assembled at this very edge leaves the Flysheet, or the degraded area, for the side buffer, and the record it
overwrote stands again (R319). -/
def State.asmToSide (s : State) : State :=
  if s.log.asmRank = some s.rank then
    s.modLog fun l =>
      let ring := if l.degr then l.area else l.fly
      let back := l.asmOut.toList ++ ring.dropLast
      let l := { l with side := l.side ++ ring.getLast?.toList }
      if l.degr then { l with area := back } else { l with fly := back, flyAt := (l.flyAt + 8191) % 8192 }
  else s

/-- What a write that leaves REC_FREEZE.frz at its new value does: a freeze takes in a record assembled at its apply edge, the end of one
starts the drain (R319). -/
def State.freezeTo (s : State) (old new : Bool) : State :=
  if old && !new then s.modLog fun l => { l with drain := !l.side.isEmpty, sideAt := s.eng2 }
  else if !old && new then (s.asmToSide).modLog fun l => { l with frzDropped := false }
  else s

/-! ## The Groundsheet (R321-R324) -/

/-- Address of the Groundsheet's record slot `i`. -/
def State.gsSlot (s : State) (i : Nat) : Nat := ((s.region 5).getD (0, 0)).1 + 2 * s.sectSize + 64 * i

/-- The effect of GROUNDSHEET_WRITE: the next record of area 0 goes to its slot as a program of the recorder's (R321). -/
def State.gsWrite (s : State) : State :=
  let busy := s.ldr.jobs.any fun j => match j.use with
    | .gsWrite _ => true
    | .gsClear _ => true
    | .gsFirst _ => true
    | _ => false
  if s.gsWriting && !busy && s.ldr.phase == .opened && !s.domStill 0 && !s.domStill 4 then
    match lowest (fun r => !serLt r.rseq s.log.gsNext) s.area0 with
    | some r => s.addJob { req := 1, use := .gsWrite r.rseq, steps := s.progAt (s.gsSlot s.log.gsAt) r.bytes }
    | none => s
  else s

/-- GROUNDSHEET_WRITE (R321). -/
def execGroundsheetWrite (s : State) : Out := done s s.gsWrite

/-- A record's slot has been programmed (R321, R336). -/
def State.gsWritten (s : State) (rseq : Word) : State :=
  let s := s.modLog fun l => { l with gsN := l.gsN + 1, gsAt := l.gsAt + 1, gsNext := rseq + 1 }
  onlyIf (decide (s.log.gsN = 1024)) (·.recHouse) s

/-- Whether a valid protection record has region 5 in its mask; and whether one that has is locked (R323, R266). -/
def State.gsProt (s : State) : Bool × Bool :=
  let ks := (List.range 4).filter fun k => match s.protRec k with
    | some r => nfld (leNat (r.take 2)) 5 1 == 1
    | none => false
  (!ks.isEmpty, ks.any fun k => !s.ldr.unl.contains k)

/-- Address of history slot `i` (R322). -/
def State.histSlot (s : State) (i : Nat) : Nat :=
  ((s.region 5).getD (0, 0)).1 + (if i < 8 then 64 * i else s.sectSize + 64 * (i - 8))

/-- Bytes of a history entry before its crc, done as 0xFF (the table "Clear history entry"). -/
def histBody (b : List Byte) : List Byte := b.take 0x16 ++ [0xFF#8] ++ (b.drop 0x17).take 37

/-- Whether a history slot holds an entry with a correct crc. -/
def histOk (b : List Byte) : Bool := decide (wordBytes (crc32 (histBody b)) = b.drop 0x3C)

/-- The history entries that stand, oldest first, with their slots (R322). -/
def State.histList (s : State) : List (Nat × List Byte) :=
  let l := ((List.range 16).map fun i => (i, s.nvmBytes (s.histSlot i) 64)).filter fun x => histOk x.2
  l.mergeSort fun a b => leNat (a.2.take 4) ≤ leNat (b.2.take 4)

/-- The clear history table shows region 5's entries (0x1C). -/
def State.readHist (s : State) : State :=
  if (s.region 5).isSome then s.modLog fun l => { l with hist := s.histList.map fun x => wordsOf x.2 } else s

/-- The history slot a clear takes, and the slot whose sector to erase first when all 16 are used (R324). -/
def State.histNext (s : State) : Nat × Option Nat :=
  match (List.range 16).find? fun i => (s.nvmBytes (s.histSlot i) 64).all (· == 0xFF#8) with
  | some i => (i, none)
  | none =>
    let old := match s.histList with
      | x :: _ => if x.1 < 8 then 0 else 8
      | [] => 0
    (old, some old)

/-- Steps 3 and 4 of a clear: the record slots' sectors are erased, and done is programmed to 0x00 in slot `i`. -/
def State.clearSteps (s : State) (i : Nat) : List NvmStep :=
  s.blankSteps (s.gsSlot 0) 65536 ++ [.prog (s.histSlot i + 0x16) [0x00#8]]

/-- An accepted clear begins (R324). The rseq of its CLEAR record is taken now, for the history entry (log 29). -/
def State.beginClear (s : State) : State :=
  let seq := match s.histList.getLast? with
    | some x => leNat (x.2.take 4) + 1
    | none => 1
  let r := s.log.rseq
  let b := leBytes 4 seq ++ leBytes 8 s.recTime.toNat ++ leBytes 4 r.toNat ++ leBytes 2 s.log.gsN
    ++ leBytes 4 s.ldr.epoch.toNat ++ [0xFF#8] ++ List.replicate 37 0#8
  let (i, er) := s.histNext
  let pre : List NvmStep := match er with
    | some k => s.blankSteps (s.sectOf (s.histSlot k)) s.sectSize
    | none => []
  let s := s.modLog fun l => { l with clearing := true, rseq := l.rseq + 1 }
  s.addJob { req := 1, use := .gsClear r, steps := pre ++ [.prog (s.histSlot i) (b ++ wordBytes (crc32 b))] ++ s.clearSteps i }

/-- The slots are erased and done is programmed: the CLEAR record is to be assembled, ahead of the request queue (R324; log 29). -/
def State.endClear (s : State) (rseq : Word) : State :=
  let h := s.histList.getLast?.map Prod.snd
  let held := match h with
    | some b => leNat ((b.drop 0x10).take 2)
    | none => 0
  let seq := match h with
    | some b => leNat (b.take 4)
    | none => 0
  let r : Rec := { kind := 0x11, time := s.recTime, sub := s.recSub, d := [wd seq, wd held], rseq := rseq }
  (s.modLog fun l => { l with gsN := 0, gsAt := 0, clearQ := some r }).readHist

/-- A clear ends: its CLEAR record fills slot 0, and the writer resumes with the records assembled after it (R324, R336). -/
def State.gsRestart (s : State) (next : Word) : State :=
  ((s.modLog fun l => { l with gsN := 1, gsAt := 1, gsNext := next, clearing := false }).bump 0x343C).recHouse

/-- The status a clear ends with at its command, in the order of R323. -/
def State.clearStatus (s : State) : Nat :=
  let armed : Bool := match s.log.armed with
    | some t => decide (s.slowEdge < t + 32)
    | none => false
  let p := s.gsProt
  if armed = false then 1 else if p.1 = false then 2 else if p.2 then 3 else if (s.region 5).isNone then 4
  else if s.log.clearing then 5 else 0

/-! ## Flushes (R325-R327) -/

/-- The flush blocks of region 6, by address. -/
def State.flushAddrs (s : State) : List Nat := match s.region 6 with
  | some (a, n) => (List.range (n / 4096)).map fun i => a + 4096 * i
  | none => []

/-- A record from its 64 bytes, when its crc is right (R312). -/
def recOf (b : List Byte) : Option Rec :=
  if wordBytes (crc32 (b.take 60)) = b.drop 60 ∧ b.length = 64 then
    some { kind := leNat (b.take 1), flags := leNat ((b.drop 1).take 1), tenant := leNat ((b.drop 2).take 1),
           rseq := wd (leNat ((b.drop 4).take 4)), time := BitVec.ofNat 64 (leNat ((b.drop 8).take 8)),
           sub := wd (leNat ((b.drop 16).take 4)), object := leNat ((b.drop 20).take 2), reason := leNat ((b.drop 22).take 2),
           d := wordsOf ((b.drop 24).take 32), epoch := wd (leNat ((b.drop 56).take 4)) }
  else none

/-- Pieces of 64 bytes; `n` bounds their number. -/
def chunks64 : Nat → List Byte → List (List Byte)
  | 0, _ => []
  | n + 1, b => if b.isEmpty then [] else b.take 64 :: chunks64 n (b.drop 64)

/-- The records of a flush block, when it is valid: it holds at least one record with a correct crc (R327). -/
def State.flushBlock (s : State) (a : Nat) : List Rec := (chunks64 64 (s.nvmBytes a 4096)).filterMap recOf

/-- Whether a flush that has not ended names a block (R326). -/
def State.flushNames (s : State) (a : Nat) : Bool := s.ldr.jobs.any fun j => match j.use with
  | .flush b _ _ => decide (b = a)
  | _ => false

/-- A flush of records into the next erased block that no other flush has taken, by requester `r` (R325-R327). -/
def State.flushRecs (s : State) (r : Nat) (recs : List Rec) (power : Bool) : State :=
  match s.flushAddrs.find? fun a => s.nvmBlank a 4096 && !s.flushNames a with
  | none => (s.bump 0x3434).recHouse
  | some a =>
    (s.bump 0x3430).addJob { req := r, use := .flush a (recs.map Rec.rseq) power, steps := s.progAt a (recs.flatMap Rec.bytes) }

/-- The newest 64 records of a list, in ascending rseq (R325). -/
def newest64 (l : List Rec) : List Rec :=
  let l := l.mergeSort fun a b => !serLt b.rseq a.rseq
  l.drop (l.length - 64)

/-- A fault flush that was asked for begins, when none runs (R325). -/
def State.kickFlush (s : State) : State :=
  if s.log.flushWant && !s.flushRuns && s.ldr.phase == .opened && !s.domStill 0 && !s.domStill 4 then
    let s := s.modLog fun l => { l with flushWant := false }
    let held := (s.flushAddrs.flatMap s.flushBlock).map Rec.rseq
    let l := newest64 (s.area0.filter fun r => !held.contains r.rseq)
    if l.isEmpty then s else s.flushRecs 1 l false
  else s

/-- The highest rseq of a list of records. -/
def topSeq (l : List Rec) : Option Word := (highest (fun _ => true) l).map Rec.rseq

/-- The newest valid flush block: the one that holds the highest rseq (R327). -/
def State.newestFlush (s : State) : Option (Nat × List Rec) :=
  s.flushAddrs.foldl (fun m a =>
    let l := s.flushBlock a
    match topSeq l, m with
    | some n, some (b, k) => if serLt ((topSeq k).getD n) n then some (a, l) else some (b, k)
    | some _, none => some (a, l)
    | none, m => m) none

/-- The flush sectors to be erased: those with no erased block and not the newest block, but for bad ones (R327). -/
def State.staleFlush (s : State) : List Nat := match s.region 6 with
  | some (a, n) =>
    let new := s.newestFlush.map Prod.fst
    ((List.range (n / s.sectSize)).map fun i => a + i * s.sectSize).filter fun x =>
      !(s.flushAddrs.any fun b => decide (s.sectOf b = x) && s.nvmBlank b 4096) && !s.ldr.bad.contains (s.nvmPhys x) &&
      (match new with
        | some b => decide (s.sectOf b ≠ x)
        | none => true)
  | none => []

/-- Whether a job erases, or blanks, a flush sector. -/
def State.flushErasing (s : State) : Bool := s.ldr.jobs.any fun j => match j.use with
  | .flushErase => true
  | _ => false

/-- The recorder erases the next flush sector that is to be erased: one at a time, from the Open on, and not one a flush still writes
(R327). -/
def State.eraseFlush (s : State) : State :=
  match (if s.ldr.phase == .opened && !s.flushErasing && !s.flushRuns then s.staleFlush else []) with
  | a :: _ =>
    s.addJob { req := 1, use := .flushErase, steps := if s.isNor then [.erase (s.nvmPhys a)] else s.blankSteps a s.sectSize }
  | [] => s

/-! ## Checkpoints (R335) -/

/-- Bytes of a checkpoint half, rounded up to whole sectors. -/
def State.ckptHalf (s : State) : Nat := cdiv 209472 s.sectSize * s.sectSize

/-- Address of a checkpoint half. -/
def State.ckptAddr (s : State) (h : Nat) : Nat := ((s.region 7).getD (0, 0)).1 + h * s.ckptHalf

/-- A checkpoint half with its crc field taken as 0. -/
def ckptBody (b : List Byte) : List Byte := b.take 0x3C ++ List.replicate 4 0#8 ++ b.drop 0x40

/-- A checkpoint half's ckseq, when the half is valid. -/
def State.ckptSeq (s : State) (h : Nat) : Option Nat :=
  if (s.region 7).isSome then
    let b := s.nvmBytes (s.ckptAddr h) 209472
    if b.take 4 = [0x52#8, 0x4E#8, 0x48#8, 0x43#8] ∧ wordBytes (crc32 (ckptBody b)) = (b.drop 0x3C).take 4 then
      some (leNat ((b.drop 4).take 4)) else none
  else none

/-- The newer valid half. -/
def State.ckptNewer (s : State) : Option Nat := match s.ckptSeq 0, s.ckptSeq 1 with
  | some a, some b => some (if a < b then 1 else 0)
  | some _, none => some 0
  | none, some _ => some 1
  | none, none => none

/-- REC_OPH. -/
def State.oph (s : State) : Word := wd (at_ s.log.opSec 0 12 + at_ s.log.opHour 12 20)

/-- The counts of a checkpoint, in the order of the table "Counter checkpoint". -/
def State.ckptCounts (s : State) : List Byte :=
  bytesOf (((List.range 23104).flatMap fun p => [s.tw 0x19 p 0, s.tw 0x19 p 1])
    ++ ((List.range 256).flatMap fun v => (List.range 8).map fun w => s.tw 0x1A v w)
    ++ ((List.range 4096).map fun n => s.tw 0x1B (n / 16) (n % 16)))

/-- A checkpoint's header before its crc. -/
def State.ckptHead (s : State) (seq : Word) : List Byte :=
  [0x52#8, 0x4E#8, 0x48#8, 0x43#8] ++ wordBytes seq ++ leBytes 8 s.log.sec.toNat ++ wordBytes s.oph ++ List.replicate 40 0#8

/-- A checkpoint begins: the older half is erased, the counts are programmed, then the header (R335). -/
def State.startCkpt (s : State) : State :=
  if (s.region 7).isNone then s
  else
    let h := match s.ckptNewer with
      | some n => 1 - n
      | none => 0
    let a := s.ckptAddr h
    let seq := s.log.ckseq + 1
    let head := s.ckptHead seq
    let body := s.ckptCounts
    let crc := wordBytes (crc32 (head ++ List.replicate 4 0#8 ++ body))
    let er := if s.isNor then s.eraseAt a 209472 else []
    let s := s.modLog fun l => { l with ckptOn := true, ckptSec := 0 }
    s.addJob { req := 2, use := .ckpt h, steps := er ++ s.progAt (a + 0x40) body ++ s.progAt a (head ++ crc) }

/-- A checkpoint that falls due: one that runs makes it skipped. Its job waits while D_NVM is not On (R335). -/
def State.dueCkpt (s : State) : State :=
  if s.log.ckptOn then s.bump 0x3440 else if s.domOn 0 then s.startCkpt else s

/-- A checkpoint has ended. -/
def State.endCkpt (s : State) : State := s.modLog fun l => { l with ckptOn := false, ckseq := l.ckseq + 1 }

/-! ## REC_CMD (R319-R328) -/

/-- What REC_CMD does with its op (the table REC_CMD). Every op with an effect ends a standing ARM (R323). -/
def State.recCmd (s : State) (op : Nat) : State :=
  match op with
  | 1 => s.modLog fun l => { l with armed := some s.slowEdge }
  | 2 =>
    let st := s.clearStatus
    let s := s.modLog fun l => { l with armed := none, cstat := st }
    if st = 0 then s.beginClear else s
  | 3 => s.modLog fun l => { l with armed := none, degr := false }
  | 4 => ((s.modLog fun l => { l with armed := none }).wantFlush).kickFlush
  | 5 => (s.modLog fun l => { l with armed := none }).dueCkpt
  | _ => s

/-! ## Cursors (R320, R337) -/

/-- Whether window `win` may see a record (R337). -/
def seesRec (win : Nat) (r : Rec) : Bool := decide (win = 0) || (r.flags % 2 == 1 && decide (r.tenant = win - 1))

/-- The record a cursor command finds among a list (R320). -/
def findRec (win op : Nat) (cur : Word) (l : List Rec) : Option Rec :=
  let ok := seesRec win
  match op with
  | 1 => lowest ok l
  | 2 => highest ok l
  | 3 => l.find? fun r => ok r && decide (r.rseq = cur)
  | _ => lowest (fun r => ok r && serLt cur r.rseq) l

/-- A cursor command ends with what it found: the cursor moves, and the words are copied (R320). A granted tenant's cursor copies the
record as it is, the PSN of a CTX_OVR and the object of a target's FAULT included, though R6 keeps those numbers from a tenant: the
record is its own, and R320 copies it whole (DESIGN CHOICE, log 133). -/
def State.cursorEnd (s : State) (win op : Nat) (l : List Rec) : State :=
  match findRec win op (s.regW win 0x3480) l with
  | some r =>
    let s := if op = 3 then s else s.setRegW win 0x3480 r.rseq
    s.modWin win fun w => { w with recFound := true, recBusy := false, recWin := regsOf 0 (wordsOf r.bytes) }
  | none => s.modWin win fun w => { w with recFound := false, recBusy := false, recWin := [] }
where
  /-- Words in a sorted map, from `k` on. -/
  regsOf : Nat → List Word → SMap Word
  | _, [] => []
  | k, w :: t => if w = 0 then regsOf (k + 1) t else (k, w) :: regsOf (k + 1) t

/-- A cursor command at its apply edge (R320). The Groundsheet is read from NVM. -/
def State.cursorCmd (s : State) (win op area : Nat) : State :=
  if op = 0 ∨ 4 < op ∨ area = 3 then s
  else if area = 0 then s.cursorEnd win op s.area0
  else if area = 2 then s.cursorEnd win op (s.log.gasp.map Prod.snd)
  else if (s.region 5).isNone then s.cursorEnd win op []
  else (s.modWin win fun w => { w with recBusy := true }).addJob
    { req := 1, use := .cursor win op area, steps := [.read (s.gsSlot 0) 65536] }

/-- Whether window `win` has the recorder's cursor (R242, R337). -/
def State.recGrant (s : State) (win : Nat) : Bool := decide (win = 0) || bit (s.ten (win - 1) 10) 16

/-- Whether a job is a cursor read of a window whose bytes have come. -/
def NvmJob.cursorDone (win : Nat) (j : NvmJob) : Bool := match j.use with
  | .cursor w _ _ => decide (w = win) && j.steps.isEmpty
  | _ => false

/-- The Groundsheet's records in the bytes a cursor read brought: as far as the first empty slot (R312, R322). -/
def gsRecs (b : List Byte) : List Rec :=
  ((chunks64 1024 b).takeWhile fun c => !(c.all (· == 0xFF#8))).filterMap recOf

/-! ## Power failure, last gasp, calendar (R326, R329-R331) -/

/-- The effect of LAST_GASP_WRITE: at the SLOW_CLK edge after its cause (R329). -/
def State.gaspWrite (s : State) : State :=
  match s.log.gaspQ with
  | (t, r) :: rest =>
    if t < s.slowEdge then
      s.modLog fun l =>
        { l with gaspQ := rest, gasp := mPut l.gasp l.gaspNext { r with rseq := l.gaspSeq, flags := r.flags ||| 2 },
                 gaspNext := (l.gaspNext + 1) % 8, gaspSeen := true, gaspSeq := l.gaspSeq + 1 }
    else s
  | [] => s

/-- LAST_GASP_WRITE (R329). -/
def execLastGaspWrite (s : State) : Out := done s s.gaspWrite

/-- What a power-fail flush leaves of a job, `now` being the one whose transaction runs: a fault's flush ends at its present page, and the
Groundsheet writer stops (R321, R326). -/
def cutJob (now : Option NvmJob) (j : NvmJob) : Option NvmJob := match j.use with
  | .flush _ _ false => if now = some j then some { j with steps := j.steps.take 1 } else none
  | .gsWrite _ => if now = some j then some j else none
  | _ => some j

/-- The flush of power failure: the NVM port is taken from its read or erase, and the Sentinel programs the newest 64 records
(R265, R326). -/
def State.powerFlush (s : State) : State :=
  let s := s.modLog fun l => { l with pfWant := l.pfWant - 1, gsStop := true }
  let now := if s.ldr.transOn then (s.arb 49).holder.bind s.headJob else none
  let reading : Bool := match now.map NvmJob.steps with
    | some (.read _ _ :: _) => true
    | _ => false
  let s := onlyIf reading (fun s => (s.modLdr fun l => { l with transOn := false }).modArb 49 fun a => { a with holder := none }) s
  let s := onlyIf s.ldr.erase.isSome (·.abortNvm) s
  let s := s.modLdr fun l => { l with jobs := l.jobs.filterMap (cutJob now) }
  s.flushRecs 3 (newest64 s.area0) true

/-- The flush of power failure begins, or waits while D_NVM is returned (R326). -/
def State.flushOnFail (s : State) : State :=
  if s.domOn 4 then s.powerFlush else (s.modLog fun l => { l with pfWant := l.pfWant + 1 }).nvmBack

/-- The effect of PFAIL (R326). Its record is assembled at once; the row brings no outcome of a read-back, which is taken as good
(DESIGN CHOICE, log 134). -/
def State.powerFail (s : State) : State :=
  let m := s.liveReg 0x2804
  let s := s.lastGasp (s.gaspRec 0x0F 0 [m])
  if s.domOn 0 then (s.assemble { kind := 0x0F, time := s.recTime, sub := s.recSub, d := [m] } .good).flushOnFail else s

/-- PFAIL (R326). -/
def execPfail (s : State) : Out := done s s.powerFail

/-- The effect of CALENDAR_SECOND: at every 32,768th SLOW_CLK edge (R279, R330, R331, R335). -/
def State.second (s : State) : State :=
  if s.log.secEdge + 32768 ≤ s.slowEdge then
    let on := s.domOn 0
    let s := s.modLog fun l =>
      let n := if on then l.opSec + 1 else l.opSec
      { l with sec := l.sec + 1, secEdge := l.secEdge + 32768, opSec := n % 3600, opHour := (l.opHour + n / 3600) % 2 ^ 20,
               ckptSec := l.ckptSec + 1 }
    let s := { s with edge := s.edge.counted 0x3500 1 }
    let s := onlyIf (bit (s.reg 0x2830) 2 && decide (wd s.log.sec.toNat = s.reg 0x2828)) (·.wake 2) s
    onlyIf (on && s.ldr.phase == .opened && decide (orOne (fld (s.reg 0x3418) 0 16) ≤ s.log.ckptSec))
      (fun s => s.dueCkpt.modLog fun l => { l with ckptSec := 0 }) s
  else s

/-- CALENDAR_SECOND (R330). -/
def execCalendarSecond (s : State) : Out := done s s.second

/-- REC_CAL takes a value: the seconds are loaded, an increment of this SLOW_CLK edge on top, and cv is set (R32, R330). Seconds that
become equal to PWR_ALARM request a wake (R279). -/
def State.loadCal (s : State) (v : W64) : State :=
  let was := wd s.log.sec.toNat
  let s := s.modLog fun l => { l with sec := v.setWidth 48 + BitVec.ofNat 48 (counts s.edge.lcnt 0x3500), cv := true }
  let alarm := s.reg 0x2828
  onlyIf (bit (s.reg 0x2830) 2 && decide (was ≠ alarm) && decide (wd s.log.sec.toNat = alarm)) (·.wake 2) s

end Sys2Proof.Machine
end

