-- ==== Sys2Proof/Machine/Image.lean ====
section
/-! DEFINITION. The image of the NVM memory: headers, profiles, sections, and SHA-256 (R245, R247, R248, R253, R256,
R267). -/

namespace Sys2Proof.Machine

/-! ## SHA-256 (R267; log 12) -/

/-- The first 64 primes: those below 312, which no smaller number up to 17 divides. -/
def primes64 : List Nat :=
  (List.range 312).filter fun n => decide (2 ≤ n) && (List.range 16).all fun i => decide (n ≤ i + 2) || decide (n % (i + 2) ≠ 0)

/-- The integer part of the k-th root of `n`, of at most 36 bits, found from its top bit down. -/
def intRoot (k n : Nat) : Nat :=
  (List.range 36).reverse.foldl (fun r i => if (r + 2 ^ i) ^ k ≤ n then r + 2 ^ i else r) 0

/-- The first 32 bits after the point of the k-th root of `p`. -/
def rootFrac (k p : Nat) : Word := wd (intRoot k (p * 2 ^ (32 * k)))

/-- The round constants: from the cube roots of the first 64 primes. -/
def shaK : List Word := primes64.map (rootFrac 3)

/-- The initial hash value: from the square roots of the first 8 primes. -/
def shaH : List Word := (primes64.take 8).map (rootFrac 2)

/-- Big-endian words of a byte list. -/
def beWords : List Byte → List Word
  | a :: b :: c :: d :: t => (a ++ b ++ c ++ d) :: beWords t
  | _ => []

/-- Big-endian bytes of a word. -/
def beBytes (w : Word) : List Byte := (wordBytes w).reverse

/-- The sum modulo 2 of a word's rotations to the right. -/
def rotations (x : Word) (l : List Nat) : Word := l.foldl (fun t n => t ^^^ x.rotateRight n) 0

/-- The message schedule, newest word first. -/
def shaSched : Nat → List Word → List Word
  | 0, w => w
  | n + 1, w =>
    let old := w.getD 14 0
    let new := w.getD 1 0
    let low := rotations old [7, 18] ^^^ (old >>> 3)
    let high := rotations new [17, 19] ^^^ (new >>> 10)
    shaSched n ((high + w.getD 6 0 + low + w.getD 15 0) :: w)

/-- One round on the eight working words: `ch` takes its bits from f or g as e tells, `maj` is the majority of a, b and c. -/
def shaRound (v : List Word) (kw : Word × Word) : List Word :=
  match v with
  | [a, b, c, d, e, f, g, h] =>
    let ch := g ^^^ (e &&& (f ^^^ g))
    let maj := (a &&& b) ||| (c &&& (a ||| b))
    let x := kw.1 + kw.2 + h + rotations e [6, 11, 25] + ch
    [x + rotations a [2, 13, 22] + maj, a, b, c, x + d, e, f, g]
  | v => v

/-- One 64-byte block. -/
def shaBlock (h : List Word) (b : List Byte) : List Word :=
  let w := (shaSched 48 (beWords b).reverse).reverse
  List.zipWith (· + ·) h ((shaK.zip w).foldl shaRound h)

/-- The padded message. -/
def shaPad (m : List Byte) : List Byte :=
  m ++ [0x80#8] ++ List.replicate ((119 - m.length % 64) % 64) 0#8 ++ (leBytes 8 (8 * m.length)).reverse

/-- SHA-256 of a byte list. -/
def sha256 (m : List Byte) : List Byte :=
  let p := shaPad m
  ((chunks64 (p.length / 64 + 1) p).foldl shaBlock shaH).flatMap beBytes

/-! ## Headers (R245, R247) -/

/-- A little-endian field of a byte list. -/
def fieldAt (b : List Byte) (off n : Nat) : Nat := leNat ((b.drop off).take n)

/-- The regions a header lists. -/
def hdrRegions (b : List Byte) : List (Nat × Nat) :=
  (List.range 11).map fun i => (fieldAt b (0x20 + 8 * i) 4, fieldAt b (0x24 + 8 * i) 4)

/-- Whether the present regions are sector-aligned, clear of sectors 0 and 1, and apart from each other (R247). -/
def regionsOk (sect : Nat) (rs : List (Nat × Nat)) : Bool :=
  let l := rs.filter fun r => decide (r.2 ≠ 0)
  l.all (fun r => decide (r.1 % sect = 0) && decide (2 * sect ≤ r.1)) &&
  decide (l.Pairwise fun a b => a.1 + a.2 ≤ b.1 ∨ b.1 + b.2 ≤ a.1)

/-- A header copy, when it is valid (R247). -/
def headerOf (b : List Byte) : Option Header :=
  let lsect := fieldAt b 0x17 1
  if b.take 4 = [0x52#8, 0x4E#8, 0x48#8, 0x49#8] ∧ fieldAt b 4 2 = 1 ∧ fieldAt b 6 2 = 0x80 ∧
      wordBytes (crc32 (b.take 0x7C)) = (b.drop 0x7C).take 4 ∧ regionsOk (2 ^ lsect) (hdrRegions b) then
    some { hseq := wd (fieldAt b 8 4), nor := decide (fieldAt b 0x0C 1 = 1), io := fieldAt b 0x0D 1, div := fieldAt b 0x0E 1,
           dummy := fieldAt b 0x0F 1, opRead := b.getD 0x10 0, ops := (b.drop 0x11).take 6, opWren := b.getD 0x78 0,
           opRdsr := b.getD 0x79 0, busyBit := nfld (fieldAt b 0x7A 1) 0 3, rdly := nfld (fieldAt b 0x7A 1) 4 2, lsect := lsect, lpage := fieldAt b 0x18 1,
           uselast := nfld (fieldAt b 0x19 1) 0 1 == 1, fbp0 := nfld (fieldAt b 0x19 1) 1 1 == 1, tprog := fieldAt b 0x1A 2,
           terase := fieldAt b 0x1C 2, trst := fieldAt b 0x1E 2, tsusp := fieldAt b 0x7B 1, regions := hdrRegions b }
  else none

/-- The header of a start: the valid copy with the higher hseq, copy 0 when equal (R247). Copies are read without remapping. -/
def State.findHeader (s : State) : Option Header :=
  let raw := fun a => (List.range 128).map fun i => mGet (fun _ => 0xFF#8) s.ldr.nvm (a + i)
  match headerOf (raw 0), headerOf (raw 0x1000) with
  | some a, some b => some (if a.hseq.toNat < b.hseq.toNat then b else a)
  | some a, none => some a
  | none, b => b

/-! ## Profiles (R248, R253) -/

/-- A profile with its crc field taken as 0. -/
def profBody (b : List Byte) : List Byte := b.take 0x3C ++ List.replicate 4 0#8 ++ b.drop 0x40

/-- The bytes of a profile at an address, when its header and crc are valid (R253). -/
def profOf (room : List Byte) : Option (List Byte) :=
  let n := fieldAt room 8 4
  let b := room.take n
  if room.take 4 = [0x52#8, 0x4E#8, 0x48#8, 0x50#8] ∧ 0x40 ≤ n ∧ n ≤ 0x200000 ∧ n ≤ room.length ∧
      wordBytes (crc32 (profBody b)) = (b.drop 0x3C).take 4 then some b else none

/-- A section of a profile: its table, its swap flag, its words and entries (the table "Section descriptor"). -/
structure Section where
  table : Nat
  swap : Bool
  wmask : Nat
  first : Nat
  count : Nat
  data : List Word
  deriving DecidableEq, Repr

/-- The sections of a profile's bytes behind its header; `n` is their number. -/
def sectionsOf : Nat → List Byte → List Section
  | 0, _ => []
  | n + 1, b =>
    if b.length < 16 then []
    else
      let dlen := fieldAt b 12 4
      { table := fieldAt b 0 1, swap := nfld (fieldAt b 1 1) 0 1 == 1, wmask := fieldAt b 2 2, first := fieldAt b 4 4,
        count := fieldAt b 8 4, data := wordsOf ((b.drop 16).take dlen) } :: sectionsOf n (b.drop (16 + dlen))

/-- The sections of a profile. -/
def sections (p : List Byte) : List Section := sectionsOf (fieldAt p 6 2) (p.drop 0x40)

/-- The words a mask selects, ascending. -/
def maskWords (m : Nat) : List Nat := (List.range 16).filter fun w => nfld m w 1 == 1

/-- An entry's words from a section's data. -/
def entryWords (ws : List Nat) (data : List Word) (j : Nat) : List (Nat × Word) :=
  ws.zip ((data.drop (j * ws.length)).take ws.length)

/-- Whether a word belongs to the swap set (R248). -/
def inSwapSet (tid w : Nat) : Bool :=
  decide (tid = 0x0F) || decide (tid = 0x0D) || (decide (tid = 0x0A) && decide (w ≤ 6))

/-- Whether a table key belongs to the swap set. -/
def swapKey (k : Nat) : Bool := inSwapSet (k / 0x80000) (k % 16)

/-! ## What SAVE writes (R256) -/

/-- The tables a profile carries, with the words that hold configuration (log 30); the source map stands behind the tenants it needs
(R346). -/
def saveTables : List (Nat × Nat) :=
  [0x01, 0x02, 0x03, 0x04, 0x05, 0x07, 0x08, 0x0A, 0x0B, 0x0C, 0x0D, 0x0E, 0x0F, 0x10, 0x11, 0x12, 0x13, 0x14, 0x15, 0x16].map fun t =>
    (t, if t = 0x15 then 0xFFFF
        else (((List.range 16).filter fun w => decide (tblMask t w ≠ 0) && !isCnt t w).map fun w => 2 ^ w).sum)

/-- A section's bytes. -/
def sectionBytes (table flags wmask first count : Nat) (data : List Word) : List Byte :=
  leBytes 1 table ++ leBytes 1 flags ++ leBytes 2 wmask ++ leBytes 4 first ++ leBytes 4 count ++ leBytes 4 (4 * data.length)
    ++ bytesOf data

/-- The page registers a profile carries: configuration outside D_LANTERN and outside the windows' own (log 30). -/
def saveRegs : List Nat :=
  (regIndex.filter fun r => r.kind == .cfg && !r.lan && !r.win).flatMap fun r =>
    (List.range r.n).map fun i => r.lo + i * r.stride

/-- The bytes of the present configuration as a profile (R256). -/
def State.saveImage (s : State) : List Byte :=
  let secs := saveTables.map fun x =>
    let ws := maskWords x.2
    let flags := if ws.all (inSwapSet x.1) then 1 else 0
    sectionBytes x.1 flags x.2 0 (tblCount x.1)
      ((List.range (tblCount x.1)).flatMap fun i => ws.map fun w => s.tw x.1 i w)
  let pairs := sectionBytes 0xF0 0 0 0 saveRegs.length (saveRegs.flatMap fun o => [wd o, s.reg o])
  let body := secs.flatten ++ pairs
  let head := [0x52#8, 0x4E#8, 0x48#8, 0x50#8] ++ leBytes 1 s.ldr.sel ++ [0x01#8] ++ leBytes 2 (saveTables.length + 1)
    ++ leBytes 4 (0x40 + body.length) ++ wordBytes (s.ldr.epoch + 1) ++ List.replicate 44 0#8
  head ++ wordBytes (crc32 (head ++ List.replicate 4 0#8 ++ body)) ++ body

/-- Address and size of a last-settings half, when the area is present. -/
def State.halfAt (s : State) (h : Nat) : Option (Nat × Nat) :=
  (s.region 4).map fun r => (r.1 + h * (r.2 / 2), r.2 / 2)

/-- The bytes of a profile slot (0-3) or last-settings half (4, 5), when it holds a valid profile (R253). -/
def State.profAt (s : State) (i : Nat) : Option (List Byte) :=
  match (if i < 4 then s.region i else s.halfAt (i - 4)) with
  | some (a, n) =>
    match profOf (s.nvmBytes a (min n 0x200000)) with
    | some p => if i < 4 ∧ fieldAt p 4 1 ≠ i then none else some p
    | none => none
  | none => none

/-- Epoch of a profile's bytes. -/
def profEpoch (p : List Byte) : Nat := fieldAt p 12 4

/-- The newer valid last-settings half (R253). -/
def State.newerHalf (s : State) : Option Nat := match s.profAt 4, s.profAt 5 with
  | some a, some b => some (if profEpoch a < profEpoch b then 5 else 4)
  | some _, none => some 4
  | none, some _ => some 5
  | none, none => none

end Sys2Proof.Machine
end

