-- ==== Sys2Proof/Machine/Open.lean ====
section
/-! DEFINITION. The Open edge: what comes into force there, for the sources, the bases, the contexts, the engines, the
recorder and the retention record (R250, R251, R254, R318, R321-R327, R330, R331, R335). -/

namespace Sys2Proof.Machine

/-! ## What the recorder does at Open -/

/-- The Groundsheet's records. -/
def State.gsHeld (s : State) : List Rec :=
  if (s.region 5).isSome then gsRecs (s.nvmBytes (s.gsSlot 0) 65536) else []

/-- The Groundsheet's record slots before the first empty one (R322). -/
def State.gsSlots (s : State) : Nat :=
  if (s.region 5).isSome then
    ((chunks64 1024 (s.nvmBytes (s.gsSlot 0) 65536)).takeWhile fun c => !(c.all (· == 0xFF#8))).length
  else 0

/-- The Flysheet of a start that did not take the retained path, and REC_RSEQ (R318, R327). -/
def State.flyOpen (s : State) : State :=
  let blk := match s.newestFlush with
    | some x => x.2
    | none => []
  let fly := blk.map (fun r => { r with flags := r.flags ||| 8 }) ++ s.log.fly
  let next := match topSeq (s.flushAddrs.flatMap s.flushBlock ++ s.gsHeld ++ fly) with
    | some n => n + 1
    | none => s.log.rseq
  s.modLog fun l => { l with fly := fly, flyAt := fly.length % 8192, rseq := next }

/-- Words put into a table from its entry 0 on, `per` words an entry. -/
def State.putWords (s : State) (tid per : Nat) (ws : List Word) : State :=
  ((List.range ws.length).zip ws).foldl (fun t x => t.setTw tid (x.1 / per) (x.1 % per) x.2) s

/-- The counts of the newer valid checkpoint half (R335). -/
def State.halfCounts (s : State) : Option (List Word) :=
  s.ckptNewer.map fun h => wordsOf ((s.nvmBytes (s.ckptAddr h) 209472).drop 0x40)

/-- The counts are restored: from the retained copy when its crc is correct, else from the newer valid half; the wear
counts from the half (R334, R335). -/
def State.countsOpen (s : State) : State :=
  let half := s.halfCounts
  let s := if s.log.keepOk then
      let rest := s.tbl.filter fun x => !(decide (x.1 / 0x80000 = 0x19) || decide (x.1 / 0x80000 = 0x1A))
      forEach s.log.keep (fun x t => { t with tbl := mSet tblReset t.tbl x.1 x.2 }) { s with tbl := rest }
    else match half with
      | some ws => (s.putWords 0x19 2 (ws.take 46208)).putWords 0x1A 8 ((ws.drop 46208).take 2048)
      | none => s
  match half with
  | some ws => s.putWords 0x1B 16 (ws.drop 48256)
  | none => s

/-- The calendar and the operating time after lantern power-on reset (R330, R331). -/
def State.calOpen (s : State) : State :=
  if s.log.calLost then
    match s.ckptNewer with
    | some h =>
      let b := s.nvmBytes (s.ckptAddr h) 64
      let oph := fieldAt b 0x10 4
      s.modLog fun l =>
        { l with sec := BitVec.ofNat 48 (fieldAt b 8 8), cv := false, opSec := nfld oph 0 12, opHour := nfld oph 12 20,
                 calLost := false, ckptSec := 0 }
    | none => s.modLog fun l => { l with calLost := false }
  else s

/-- A clear whose newest history entry still has done = 0xFF resumes at step 3 (R324). -/
def State.clearOpen (s : State) : State :=
  match (if (s.region 5).isSome then s.histList.getLast? else none) with
  | some x =>
    if x.2.getD 0x16 0 = 0xFF#8 then
      (s.modLog fun l => { l with clearing := true }).addJob
        { req := 1, use := .gsClear (wd (fieldAt x.2 0x0C 4)), steps := s.clearSteps x.1 }
    else s
  | none => s

/-- The rseq from which the Groundsheet writer copies: one above the Groundsheet's highest, the lowest held when it is empty; on the retained
path not below its own place, which a clear may have moved on (R321, R322, R324). -/
def State.gsFrom (s : State) (retained : Bool) (g : List Rec) : Word :=
  let top := match topSeq g with
    | some n => n + 1
    | none => ((lowest (fun _ => true) s.area0).map Rec.rseq).getD s.log.rseq
  if retained && serLt top s.log.gsNext then s.log.gsNext else top

/-- What the recorder does at the Open edge (R318, R321, R322, R324, R325, R327, R330, R331, R335, R336). -/
def State.recOpen (s : State) (retained : Bool) : State :=
  let s := if retained then s else s.flyOpen.countsOpen
  let s := s.calOpen
  let g := s.gsHeld
  let full := decide (s.log.gsN < 1024 ∧ 1024 ≤ g.length)
  let next := s.gsFrom retained g
  let seq := wd ((s.ckptNewer.bind s.ckptSeq).getD 0)
  let s := s.modLog fun l => { l with gsN := g.length, gsAt := s.gsSlots, gsNext := next, gsStop := false, ckseq := seq }
  (onlyIf full (·.recHouse) s).readHist.clearOpen.eraseFlush.kickFlush

/-! ## The Open edge (R250, R254) -/

/-- What a start opened: path, the slot or half (4 A, 5 B), the profile, whether candidate 4, the candidates rejected. -/
structure Opening where
  path : Nat
  cand : Nat
  prof : Nat
  fback : Bool
  tries : Nat
  deriving DecidableEq, Repr

/-- LDR_START at the present edge (the table LDR_START; R250). -/
def State.startWord (s : State) (o : Opening) : Word :=
  wd (min ((s.rank - s.ldr.startAt) / 3200) 0xFFFFF + at_ o.path 20 2 + at_ o.prof 22 2 + at_ (b2n o.fback) 24 1 + at_ o.tries 25 3)

/-- The START record of an Open or of a failed start (R313). -/
def State.startRecord (s : State) : State := s.record 0x04 0 s.ldr.phase.code [s.ldr.startW]

/-- The queued full erases of aborted sectors begin after Open; each stays marked until its erase is issued (R265). -/
def State.requeueErases (s : State) : State :=
  let l := s.ldr.requeue
  forEach l (fun a s => s.addJob { req := 0, use := .requeued, steps := [.erase a] }) s

/-- What comes into force together at the Open edge for contexts, bases, engines and inputs (R57, R135, R149, R174, R250). Every
bucket is full there, after a start on the retained state too (DESIGN CHOICE, log 90). -/
def State.inForce (s : State) : State :=
  let s := s.liveLevels
  let s := forEach (List.range 2048) (fun n s =>
    if fld (s.tw 0x02 n 2) 0 8 ≠ 0 then s.modIn n fun y => { y with tokens := fld (s.tw 0x02 n 2) 0 8, refillTick := s.ticks } else s) s
  let s := forEach (List.range 4096) (fun k s => if bit (s.ccfg k) 0 then s.arm k (s.ccmp k) else s) s
  let s := forEach (List.range 16) (fun n s => if bit (s.bcfg n) 0 then s.enableBase n else s) s
  let s := forEach (List.range 32) (fun c s => if s.domOn (8 + c) then s.restCluster c else s) s
  let s := forEach (List.range 2048) (fun n s => s.levelTry n) s
  s.wakeRaise

/-- The block opens (R250-R252, R254, R283). -/
def State.openEdge (s : State) (o : Opening) : State :=
  let failed := decide (s.ldr.phase = .failed)
  let w := s.startWord o
  let s := s.modLdr fun l =>
    { l with phase := .opened, path := o.path, prof := o.prof, startW := w, busy := false, cstat := 0, kept := false,
             ret := if o.path = 0 then l.ret
                    else { l.ret with path := if o.path = 3 then 0 else if o.cand < 4 then 3 else o.cand - 3, cand := o.cand } }
  let s := if bit (s.reg 0x2C00) 0 then s.modMir fun m => { m with role := if m.role = .off then .solo else m.role, helloAt := s.rank } else s
  let s := (s.recOpen (decide (o.path = 0))).inForce
  let s := onlyIf failed (·.house 0x5A15) s
  let dev := s.func fnDevice
  let s := onlyIf (dev.busy && decide (dev.step = 3)) (·.endStep fnDevice) s
  let s := s.requeueErases.modLdr fun l => { l with ret := { l.ret with same := true } }
  (s.writeRetention true).startRecord

/-- The effect of LDR_CMD OPEN (R254). -/
def State.openCmd (s : State) : State :=
  if s.ldr.phase = .failed then s.openEdge { path := 3, cand := 6, prof := s.ldr.prof, fback := false, tries := fld s.ldr.startW 25 3 }
  else s.modLdr fun l => { l with cstat := 9 }

end Sys2Proof.Machine
end

