-- ==== Sys2Proof/Machine/Loader.lean ====
section
/-! DEFINITION. The loader's commands: LDR_CMD's operations, the swap of the swap set, and the commands that name them
(R254-R259, R266, R267). -/

namespace Sys2Proof.Machine

/-! ## Statuses of LDR_STAT.cstat -/

def lOk : Nat := 0
def lProtected : Nat := 1
def lRange : Nat := 2
def lNonblank : Nat := 3
def lCrc : Nat := 4
def lBadpw : Nat := 5
def lLockout : Nat := 6
def lTimeout : Nat := 7
def lRefused : Nat := 8
def lState : Nat := 9

/-- A loader command ends with a status at once. -/
def State.ldrEnd (s : State) (st : Nat) : State := s.modLdr fun l => { l with busy := false, cstat := st }

/-- A loader command goes on as a job of the loader's NVM requester. -/
def State.ldrJob (s : State) (use : NvmUse) (steps : List NvmStep) : State :=
  (s.modLdr fun l => { l with busy := true }).addJob { req := 0, use := use, steps := steps }

/-! ## The operations -/

/-- RESTART: the override is written, memkept cleared, the warm reset asserted (R255). -/
def State.ldrRestart (s : State) (p : Nat) : State :=
  (s.modLdr fun l => { l with cstat := 0, ret := { l.ret with override := true, sel := p, memkept := false } }).assertWarm

/-- The swap-set words of the active copy become the shadow copy (R257). -/
def State.copySwap (s : State) : State :=
  { s with shadowTbl := s.tbl.filter fun x => swapKey x.1 }

/-- RETUNE: only when Open and not draining; the profile is read (R257). A swap that waits is given up first. -/
def State.ldrRetune (s : State) (p : Nat) : State :=
  if s.ldr.phase ≠ .opened ∨ s.draining then s.ldrEnd lState
  else
    let s := s.copySwap.modLdr fun l => { l with spend := false, swapCrossed := none }
    match s.region p with
    | some (a, n) => s.ldrJob (.retune p) (readAt a (min n 0x200000))
    | none => (s.bump 0x2470).ldrEnd lCrc

/-- The half SAVE writes: the older, or A when neither is valid (R256). -/
def State.saveHalf (s : State) : Nat := match s.profAt 4, s.profAt 5 with
  | some a, some b => if profEpoch a < profEpoch b then 0 else 1
  | some _, none => 1
  | none, _ => 0

/-- SAVE (R256, R266). -/
def State.ldrSave (s : State) : State :=
  let h := s.saveHalf
  match s.region 4, s.halfAt h with
  | some (b, len), some (a, n) =>
    if s.protectedAt b len then s.ldrEnd lProtected
    else
      let img := s.saveImage
      if n < img.length then s.ldrEnd lCrc
      else
        let er := if s.isNor then s.eraseAt a n else []
        s.ldrJob (.save h)
          (er ++ s.progAt (a + 0x40) (img.drop 0x40) ++ readAt (a + 0x40) (img.length - 0x40) ++ s.progAt a (img.take 0x40))
  | _, _ => s.ldrEnd lCrc

/-- LDR_ADDR. -/
def State.ldrAddr (s : State) : Nat := (s.reg 0x2404).toNat
/-- LDR_ARG.len. -/
def State.ldrLen (s : State) : Nat := fld (s.reg 0x2408) 0 9
/-- Whether a command's length and range are wrong (the tables LDR_CMD and LDR_ARG). -/
def State.badRange (s : State) : Bool :=
  decide (s.ldrLen = 0 ∨ 256 < s.ldrLen ∨ s.ldr.nvmSize < s.ldrAddr + s.ldrLen)

/-- NVM_READ (the table LDR_CMD). -/
def State.ldrRead (s : State) : State :=
  if s.badRange then s.ldrEnd lRange else s.ldrJob .nvmRead [.read s.ldrAddr s.ldrLen]

/-- The bytes of the loader buffer (table 0x17). -/
def State.ldrBuf (s : State) : List Byte :=
  (List.range 4).flatMap fun j => bytesOf ((List.range 16).map fun w => s.tw 0x17 j w)

/-- NVM_PROG (R260, R266, the table LDR_CMD). -/
def State.ldrProg (s : State) : State :=
  let a := s.ldrAddr
  if s.badRange ∨ s.pageSize < a % s.pageSize + s.ldrLen then s.ldrEnd lRange
  else if s.protectedAt a s.ldrLen then s.ldrEnd lProtected
  else s.ldrJob .nvmProg [.prog a (s.ldrBuf.take s.ldrLen)]

/-- NVM_ERASE (R260, R266, the table LDR_CMD). -/
def State.ldrErase (s : State) : State :=
  let a := s.ldrAddr
  if s.ldr.nvmSize ≤ a then s.ldrEnd lRange
  else if s.protectedAt (s.sectOf a) s.sectSize then s.ldrEnd lProtected
  else if s.isNor then s.ldrJob .nvmErase [.erase (s.nvmPhys (s.sectOf a))] else s.ldrEnd lOk

/-- The password in LDR_PWD0-LDR_PWD7. -/
def State.password (s : State) : List Byte := (bytesOf ((List.range 8).map fun i => s.reg (0x2440 + 4 * i))).take s.ldrLen

/-- Whether a protection record's hash is that of the password. -/
def State.matchesPw (s : State) (r : List Byte) : Bool :=
  decide (sha256 ((r.drop 4).take 16 ++ s.password) = (r.drop 0x14).take 32)

/-- UNLOCK's comparison (R267). -/
def State.unlockCmp (s : State) : State :=
  if s.ldr.lockout then s.ldrEnd lLockout
  else
    let hit := (List.range 4).filter fun k => match s.protRec k with
      | some r => s.matchesPw r
      | none => false
    if hit.isEmpty then
      (s.bump 0x2474).modLdr fun l => { l with busy := false, cstat := lBadpw, fails := l.fails + 1, lockout := decide (8 ≤ l.fails + 1) }
    else s.modLdr fun l =>
      { l with busy := false, cstat := lOk, unl := (List.range 4).filter fun k => l.unl.contains k || hit.contains k }

/-- UNLOCK (R267, the table LDR_ARG). -/
def State.ldrUnlock (s : State) : State :=
  let s := if s.ldrLen = 0 ∨ 32 < s.ldrLen then s.ldrEnd lRange else s.unlockCmp
  forEach (List.range 8) (fun i s => s.setReg (0x2440 + 4 * i) 0) s

/-- LOCK: every record is locked again (R267). -/
def State.ldrLock (s : State) : State := (s.modLdr fun l => { l with unl := [] }).ldrEnd lOk

/-- A pending swap is given up: the RETUNE ends REFUSED with nothing changed (R258). -/
def State.refuseSwap (s : State) : State :=
  if s.ldr.spend then s.modLdr fun l => { l with spend := false, swapCrossed := none, cstat := lRefused } else s

/-- What LDR_CMD does with a word (the table LDR_CMD). -/
def State.ldrOp (s : State) (w : Word) : State :=
  match fld w 0 4 with
  | 1 => s.ldrRestart (fld w 4 2)
  | 2 => s.ldrRetune (fld w 4 2)
  | 3 => s.ldrSave
  | 4 => s.ldrRead
  | 5 => s.ldrProg
  | 6 => s.ldrErase
  | 7 => s.ldrUnlock
  | 8 => s.ldrLock
  | 9 => s.openCmd
  | 10 => s.refuseSwap
  | _ => s

/-! ## The swap (R258, R259) -/

/-- Whether a table-port WRITE to a swap-set table is in progress. -/
def State.swapWriting (s : State) : Bool :=
  s.wins.any fun x => x.2.busy && x.2.busyWr && [0x0A, 0x0D, 0x0F].contains (fld (s.regW x.1 0x3800) 24 8)

/-- Whether the swap edge of R258 is here: the quiescent point, or the base's angle crossed. -/
def State.swapReady (s : State) : Bool :=
  s.ldr.spend &&
  (if bit (s.reg 0x241C) 0 then s.ldr.swapCrossed.isSome
   else !(s.engs.any fun x => x.2.st == .load || x.2.st == .run) && !(s.occs.any fun x => x.2.st == .launched) && !s.swapWriting)

/-- The contexts whose words 0-6 differ between the copies, ascending. -/
def swapCtxs (a b : SMap Word) : List Nat :=
  (((diffKeys tblReset a b).filter fun k => decide (k / 0x80000 = 0x0A)).map fun k => k / 16 % 0x8000).eraseDups

/-- The exchange of the copies' words. -/
def State.exchange (s : State) : State :=
  let act := s.tbl.filter fun x => swapKey x.1
  let rest := s.tbl.filter fun x => !swapKey x.1
  { s with tbl := (rest ++ s.shadowTbl).mergeSort (fun a b => a.1 ≤ b.1), shadowTbl := act }

/-- Whether a context's changed words arm it at a swap: what they would do as a commit of a table-port WRITE (R150, R168, R259). -/
def State.swapArms (s : State) (k : Nat) (old : Word) (cmp : Bool) : Bool :=
  let new := s.ccfg k
  bit new 0 && (!bit old 0 || decide (fld new 1 4 ≠ fld old 1 4) || (cmp && (s.launchedOf k).isEmpty))

/-- The effect of SWAP: the edge is a swap edge, and the exchange comes after every other update at it (R258, R259). -/
def State.swap (s : State) : State := if s.swapReady then { s with edge := { s.edge with swap := true } } else s

/-- The exchange of the copies at a swap edge: engines at work keep the outgoing copy, each context acts as though its changed words had been
committed, the arms that result are a rebuild of each base concerned, and the epoch and the retention record follow (R166, R259). -/
def State.swapNow (s : State) : State :=
  let act := s.tbl.filter fun x => swapKey x.1
  let ks := swapCtxs act s.shadowTbl
  let old := ks.map fun k => (k, s.ccfg k, s.ccmp k)
  let s := forEach ks (fun k s => s.ctxBefore k (mGet tblReset s.shadowTbl (tKey 0x0A k 0))) s
  let s := s.exchange
  let s := { s with engs := s.engs.map fun x => if x.2.st.busy then (x.1, { x.2 with oldCopy := true }) else x }
  let bases := ((old.filter fun x => s.swapArms x.1 x.2.1 (decide (s.ccmp x.1 ≠ x.2.2))).map fun x => s.cbase x.1).eraseDups.mergeSort (· ≤ ·)
  let s := forEach bases (fun n s => s.startRebuild n) s
  let s := forEach old (fun x s => s.ctxAfter x.1 x.2.1 (decide (s.ccmp x.1 ≠ x.2.2))) s
  let s := s.dueArms (2 * s.edge.arms.length)
  let s := forEach bases (fun n s => s.sizeRebuild n) s
  (s.modLdr fun l => { l with spend := false, swapCrossed := none, epoch := l.pendEpoch, cstat := lOk }).writeRetention true

/-- The swap of an edge that was one, unless the swap was given up at that edge (R258, R259). -/
def State.endSwap (s : State) : State := if s.edge.swap && s.ldr.spend then s.swapNow else s

/-- SWAP (R258, R259). -/
def execSwap (s : State) : Out := done s s.swap

/-- The effect of SWAP_TIMEOUT: LDR_SWAP.tmo has expired (R258). -/
def State.swapTimeout (s : State) : State :=
  let t := fld (s.reg 0x241C) 16 12
  if s.ldr.spend ∧ t ≠ 0 ∧ s.ldr.spendAt + 65536 * t ≤ s.rank then s.refuseSwap else s

/-- SWAP_TIMEOUT (R258). -/
def execSwapTimeout (s : State) : Out := done s s.swapTimeout

end Sys2Proof.Machine
end

