-- ==== Sys2Proof/Machine/Sentinel.lean ====
section
/-! DEFINITION. The Sentinel's commands and events: SNT_CMD, escalation timers, the ends of steps, clock monitors, scrub and
the configuration re-check (R295, R298, R302-R309). -/

namespace Sys2Proof.Machine

/-! ## SNT_CMD (R306, R307, R309) -/

/-- LEAVE_SAFE (R309). -/
def State.leaveSafe (s : State) : State :=
  let takeover := decide (s.mir.role = .takeover) && !s.mir.fack
  if s.snt.safe = false ∨ s.snt.pcreq ∨ takeover ∨ s.snt.entered = some s.rank then s
  else { s with snt := { s.snt with safe := false, left := some s.rank } }

/-- PCREQ: device step 4, once (R305). -/
def State.powerCycle (s : State) : State := if (s.func fnDevice).step = 4 then s else s.deviceStep 4 false

/-- REINIT: step 2 of the function it names, without changing s (R306). It is counted and raised as a step; R302's record is
for the ladder's steps. An engine's step begins once it holds no reflex; a device step that waits for Open absorbs it, and a fault's step of
this edge. -/
def State.reinit (s : State) (f : Nat) : State :=
  if 5408 < f then s
  else
    let x := s.func f
    if (f = fnDevice ∧ x.busy) ∨ x.stepAt = some s.rank then s
    else
      let s := (s.bump 0x30A4).bumpTw 0x18 f 3
      let s := onlyIf (bit s.sntCfg 1) (·.house 0x5A01) s
      let s := if x.busy then s else s.modFunc f fun y => { y with busy := true, cmd := true }
      s.carryOut f 2

/-- The REINIT commands of an edge act at its end, when its faults are known (R306). -/
def State.dueReinits (s : State) : State :=
  forEach s.edge.reinits (fun f s => s.reinit f) { s with edge := { s.edge with reinits := [] } }

/-- What SNT_CMD does with a word (the table SNT_CMD). A REINIT of a tenant clears its en at once, ahead of the accesses the port takes after
it (R240, R243). -/
def State.sntOp (s : State) (w : Word) : State :=
  match fld w 0 4 with
  | 1 => s.enterSafe 0
  | 2 => s.leaveSafe
  | 3 => s.assertWarm
  | 4 => s.powerCycle
  | 5 =>
    let f := fld w 16 13
    let s := if 5152 ≤ f ∧ f < 5408 then s.clearEn 0x14 (f - 5152) else s
    { s with edge := { s.edge with reinits := s.edge.reinits ++ [f] } }
  | _ => s

/-! ## The ladder's timers and step ends (R302, R305) -/

/-- The effect of ESCALATION_TIMER_EXPIRY: s returns to 0 (R302). -/
def State.escExpire (s : State) (f : Nat) : State :=
  match (s.func f).tmr with
  | some t => if t + (s.func f).len ≤ s.slowEdge then s.modFunc f fun x => { x with step := 0, tmr := none } else s
  | none => s

/-- ESCALATION_TIMER_EXPIRY (R302). -/
def execEscalationTimerExpiry (f : Nat) (s : State) : Out := done s (if f < 5409 then s.escExpire f else s)

/-- The effect of TARGET_REINIT_END: the target counts as up again, while its pin is high (the table "Steps by function"). -/
def State.targetReinitEnd (s : State) (t : Nat) : State :=
  match (s.dst t).downFrom with
  | some d => if d + 3200 ≤ s.rank then (s.modDst t fun x => { x with downFrom := none }).endStep (fnTarget t) else s
  | none => s

/-- TARGET_REINIT_END (R302). -/
def execTargetReinitEnd (t : Nat) (s : State) : Out := done s (if t < 512 then s.targetReinitEnd t else s)

/-- The effect of DEVICE_STEP_END: the scrub and re-check of a device step 1 or 2 are done; a failure found at step 2
escalates to step 3 at once (R302). An SRAM requester masked by the grant watchdog is served again (R220). -/
def State.deviceStepEnd (s : State) (found : Bool) : State :=
  let x := s.func fnDevice
  if x.busy = false ∨ (x.cmd = false ∧ 2 < x.step) then s
  else
    let s := forEach (List.range 48) (fun b s => s.modArb (b + 1) fun a => { a with masked := [] }) s
    if found ∧ (x.cmd ∨ x.step = 2) ∧ 2 ≤ fld s.sntCfg 5 2 ∧ x.step < 3 then s.deviceStep 3 false
    else s.endStep fnDevice

/-- DEVICE_STEP_END (R302). -/
def execDeviceStepEnd (found : Bool) (s : State) : Out := done s (s.deviceStepEnd found)

/-! ## Clock monitors, scrub, configuration re-check (R295, R298) -/

/-- CLOCK_FAULT: a device fault under mechanism 0x09 (R298). LINK_REFCLK is watched while D_LINK is On. -/
def execClockFault (c : Clock) (s : State) : Out :=
  done s (if c = .link ∧ s.domStill 3 = true then s else s.fault 0x09 fnDevice)

/-- The effect of SCRUB: a single error is masked; an uncorrectable one is a fault of the function whose storage it is, a
context at step 2, else the device; the voters' and the parity checkers' finds are faults of the device (R295, R302). -/
def State.scrubbed (s : State) (found : ScrubFind) : State :=
  match found with
  | .clean => s
  | .corrected => s
  | .uncorrectable f ret rt =>
    let ctx := decide (544 ≤ f) && decide (f < 4640) && !ret
    s.fault (if ret then 0x02 else 0x01) (if ctx then f else fnDevice) ctx (rt && !ret)
  | .disagreement direct => s.fault 0x03 fnDevice false direct
  | .parity => s.fault 0x04 fnDevice

/-- SCRUB: what the checkers of R295 that have no command of their own find (log 129). -/
def execScrub (found : ScrubFind) (s : State) : Out := done s (if s.domStill 0 = false then s.scrubbed found else s)

/-- CRC_RECHECK: a region that no longer matches its reference is a device fault under mechanism 0x0A, and a later start does not open on
it (R252, R295). -/
def execCrcRecheck (bad : Bool) (s : State) : Out :=
  done s (if bad && !s.domStill 0 && !s.domStill 2 then
      ({ s with ldr := { s.ldr with ret := { s.ldr.ret with same := false } } }).fault 0x0A fnDevice
    else s)

end Sys2Proof.Machine
end

