-- ==== Sys2Proof/Machine/MirrorCmd.lean ====
section
/-! DEFINITION. The loss of a mirror partner and MIR_CMD (R289-R291, R293). -/

namespace Sys2Proof.Machine

/-- Whether the block is paired. -/
def State.paired (s : State) : Bool :=
  s.mir.role == .primary || s.mir.role == .standby || s.mir.role == .resync

/-- The fence was not acknowledged in time, or no takeover is allowed: counted, shown, the safe state (R291, R293). -/
def State.fenceFails (s : State) : State :=
  (((s.bump 0x2C40).modMir fun m => { m with role := .takeover, fto := true }).mirEvent 2 true).enterSafe 2

/-- The engines that held locks, as the journal told. -/
def Mir.lockEngines (m : Mir) : List Nat :=
  ((m.plock.filter fun x => x.2.1).map fun x => x.2.2.2.2).eraseDups

/-- The locks of an engine's sequence, as the journal told. -/
def Mir.locksOf (m : Mir) (e : Nat) : List Nat := (m.plock.filter fun x => x.2.1 && decide (x.2.2.2.2 = e)).map Prod.fst

/-- Every lock is freed; those journaled as held record ABANDONED, or TORN when their burst had begun, and each sequence leaves its lock
record. How many of its writes had transferred the journal does not tell (R224, R291; log 5). -/
def State.freeJournaled (s : State) : State :=
  let m := s.mir
  let s := forEach m.lockEngines (fun e s =>
    let ls := m.locksOf e
    let torn := m.plock.any fun x => x.2.1 && x.2.2.2.1 && decide (x.2.2.2.2 = e)
    let q : LSeq := { id := 0, engine := e, locks := ls, writes := [], outh := false, ph := .torn }
    if torn then s.freeNext.reportOutcome q 3 s.freeVal.toNat else s.reportOutcome q 2 0) s
  s.modMir fun m => { m with plock := [] }

/-- FENCE_ACK is 1 in a takeover that goes on: the locks are freed, and the visits of the sources begin (R291). -/
def State.fenced (s : State) : State := s.freeJournaled.modMir fun m => { m with takeAt := some 0 }

/-- A block that lost its partner takes over: FENCE is driven, and where it stood already with FENCE_ACK at 1 the takeover goes on at
once (R291). -/
def State.takeOver (s : State) (cause : Nat) : State :=
  let s := (s.modMir fun m =>
    { m with role := .takeover, fence := true, fenceAt := s.rank, fto := false, gapped := false, snapGot := false, served := false }).mirEvent cause true
  if s.mir.fack then s.fenced else s

/-- The pairing ends: a Primary goes on as Solo, a Standby takes over, one in Resync only with rtake = 1 (R289-R291, R293). What it served
before is served no longer for a later pairing (R283). -/
def State.lose (s : State) (cause : Nat) : State :=
  let s := s.bump 0x2C34
  match s.mir.role with
  | .primary => (s.modMir fun m => { m.unpaired .solo with served := false, helloAt := s.rank }).mirEvent cause true
  | .standby => s.takeOver cause
  | .resync =>
    if bit (s.reg 0x2C00) 6 then s.takeOver cause
    else ((s.modMir fun m => { m with role := .takeover, served := false, snapGot := false }).mirEvent cause true).fenceFails
  | _ => s.mirEvent cause true

/-- MIR_CFG.en takes a value: set at an open block, the role is Solo; cleared, it is Off (R283). -/
def State.mirEnable (s : State) (en : Bool) : State :=
  if en ∧ s.mir.role = .off then
    s.modMir fun m => { m with role := .solo, helloAt := s.rank }
  else if en = false ∧ s.mir.role ≠ .off then s.modMir fun m => m.unpaired .off
  else s

/-- A frame is sent: counted in MIR_N_FRAME (R282). -/
def State.sendFrame (s : State) (f : TxFrame) : State := (s.bump 0x2C20).modMir fun m => { m with tx := some f }

/-- What MIR_CMD does with a word (the table MIR_CMD, R289, R293). REJOIN lets a block whose takeover was given up pair
again. -/
def State.mirOp (s : State) (w : Word) : State :=
  match fld w 0 2 with
  | 1 =>
    if s.mir.role = .takeover ∧ s.mir.fto then
      s.modMir fun m => { m with role := .solo, fto := false, served := false, helloAt := s.rank }
    else s
  | 2 => if s.paired then (s.sendFrame { kind := 5, flags := b2n s.mir.behind, body := [0, 0, 0] }).lose 3 else s
  | _ => s

end Sys2Proof.Machine
end

