-- ==== Sys2Proof/Machine/Power.lean ====
section
/-! DEFINITION. The power commands and events: modes, APPLY, the power manager, the strike's answers, acknowledgements and
returns, the re-pitch, the wakes, and the SLOW_CLK edge (R33, R268-R280). -/

namespace Sys2Proof.Machine

/-! ## PWR_CMD and the power manager (R269-R271, R278) -/

/-- Whether a PWR_CMD ends with status BUSY: a transition runs, or the power manager's request was served at this SLOW_CLK edge (R278). -/
def State.pwrBusy (s : State) : Bool := s.pwr.trans.isSome || decide (s.pwr.pmAt = some s.slowEdge)

/-- PWR_CMD MODE (R270, R271, R278). -/
def State.pwrMode (s : State) (m : Nat) : State :=
  if s.pwrBusy then s.modPwr fun p => { p with cstat := cBusy }
  else match modeSet m with
    | some (t, r) => s.startTrans t r false false
    | none => s.modPwr fun p => { p with cstat := cInvalid }

/-- PWR_CMD APPLY (R269, R271, R278). -/
def State.pwrApply (s : State) : State :=
  if s.pwrBusy then s.modPwr fun p => { p with cstat := cBusy }
  else match s.dtgtSet with
    | some t => s.startTrans t (bit (s.reg 0x2808) 16) false false
    | none => s.modPwr fun p => { p with cstat := cInvalid }

/-- What PWR_CMD does with a word (the table PWR_CMD). -/
def State.pwrOp (s : State) (w : Word) : State :=
  match fld w 0 2 with
  | 1 => (s.pwrMode (fld w 2 3)).afterTrans
  | 2 => s.pwrApply.afterTrans
  | _ => s

/-- POWER_MANAGER_REQUEST: PMM_REQ rises with its mode; it is seen through two flops, at the second SLOW_CLK edge (R277, R278). -/
def execPowerManagerRequest (m : BitVec 3) (s : State) : Out :=
  done s (s.modPwr fun p => { p with pmPin := p.pmPin.or (some m.toNat) })

/-- POWER_MANAGER_RELEASE: PMM_REQ falls; PMM_ACK falls at the SLOW_CLK edge that sees it (R277, R278). -/
def execPowerManagerRelease (s : State) : Out := done s (s.modPwr fun p => { p with pmPin := none })

/-! ## The strike (R272-R274) -/

/-- Whether an engine of a cluster holds a held place (R170). -/
def State.clusterHolds (s : State) (c : Nat) : Bool :=
  s.occs.any fun x => !x.2.places.isEmpty && (match x.2.engine with
    | some e => decide (e / 16 = c)
    | none => false)

/-- Whether a domain still finishes its work before it agrees: a cluster its reflexes, D_LINK the journal entries in flight, D_MEM the
table accesses under way (R272). -/
def State.working (s : State) (d : Nat) : Bool :=
  match d with
  | 2 => s.wins.any fun x => x.2.busy
  | 3 => !s.mir.journal.isEmpty
  | _ => decide (8 ≤ d) && (List.range 16).any fun b => (s.eng (16 * (d - 8) + b)).st.busy

/-- Whether an NVM request stands (R246, R272). -/
def State.nvmWanted (s : State) : Bool := s.ldr.transOn || s.ldr.jobs.any fun j => !j.steps.isEmpty

/-- The reason a domain refuses at its check, none when it agrees (the table "Agreement conditions and refusal reasons"). -/
def State.refusal (s : State) (d : Nat) : Option Nat :=
  match d with
  | 0 =>
    if s.srcs.any (fun x => x.2.st == .staged || x.2.st == .active || x.2.st == .completing) ∨ !s.fifo.isEmpty ∨ s.rq.any (fun x => !x.2.isEmpty)
        ∨ (s.arb 0).holder.isSome ∨ s.locks.any (fun x => x.2.owner.isSome) then some 2 else none
  | 1 => if s.occs.any (fun x => x.2.st == .launched) then some 1 else if s.bases.any (fun x => x.2.rebuild.isSome) then some 2 else none
  | 2 => none
  | 3 => if s.paired then some 4 else none
  | 4 => if s.ldr.busy ∨ s.ldr.erase.isSome ∨ s.ldr.spend ∨ s.nvmWanted then some 3 else none
  | _ =>
    if s.clusterHolds (d - 8) then some 1
    else if (s.cluster (d - 8)).queue.isEmpty then none else some 2

/-- The outputs that clamps hold (the table "Isolation clamp values"); `internal d` is every request and valid of domain d to the
others. -/
inductive ClampedOut where
  | msgReady | msgCvalid | tgtNotify | tgtConfirm | tgtRetract | outValid | linkTx | nvmCsN | nvmSck | nvmIoHi | nvmIoLo
  | internal (d : Nat)
  deriving DecidableEq, Repr

/-- What a clamp holds an output at: a level, electrical idle, high impedance. -/
inductive ClampLevel where
  | low | high | idle | hiZ
  deriving DecidableEq, Repr

/-- The domain whose clamp holds an output. -/
def ClampedOut.dom : ClampedOut → Nat
  | .msgReady | .msgCvalid | .tgtNotify | .tgtConfirm | .tgtRetract | .outValid => 0
  | .linkTx => 3
  | .nvmCsN | .nvmSck | .nvmIoHi | .nvmIoLo => 4
  | .internal d => d

/-- The value a clamp holds an output at: NVM_IO[3:2] are driven 1, NVM_IO[1:0] let go. -/
def ClampedOut.held : ClampedOut → ClampLevel
  | .msgReady | .nvmCsN | .nvmIoHi => .high
  | .linkTx => .idle
  | .nvmIoLo => .hiZ
  | _ => .low

/-- What the clamps hold an output at, none where its domain drives it: a domain is clamped from its agreement until its clock
restarts, D_LANTERN never (R275). -/
def State.clampAt (s : State) (o : ClampedOut) : Option ClampLevel := if s.domStill o.dom then some o.held else none

/-- A domain has stopped: its clamps are applied and its clock stops (R272, R275). -/
def State.stopDom (s : State) (d : Nat) : State :=
  s.modPwr fun p => { p with clkOff := p.clkOff.filter (· ≠ d) ++ [d], stopAt := mPut p.stopAt d s.eng2 }

/-- The domain asked agrees: the next is asked at the same edge, or the power requests go out at the next (R272, R273). -/
def State.agreed (s : State) (t : Trans) (d : Nat) : State :=
  let s := s.stopDom d
  let t := { t with ask := t.ask.drop 1, asked := s.slowEdge, stopped := d :: t.stopped }
  if t.ask.isEmpty then
    s.modPwr fun p => { p with trans := some { t with ph := .acking, await := s.toChange t, next := s.slowEdge + 1 } }
  else s.modPwr fun p => { p with trans := some t }

/-- The SLOW_CLK cycles a domain has for its answer (the table PWR_SLIM, R272). -/
def State.answerLimit (s : State) : Nat := max 3 (fld (s.reg 0x2824) 0 8)

/-- The effect of DOMAIN_ANSWER: the domain asked refuses at its check or, its work finished, agrees (R272, R274). A cluster's check
is made once its engines are idle. -/
def State.answer (s : State) : State :=
  match s.pwr.trans with
  | some t => match t.ask with
    | d :: _ =>
      if t.ph = .asking ∧ t.asked + 2 ≤ s.slowEdge ∧ s.slowEdge ≤ t.asked + s.answerLimit ∧ ¬(8 ≤ d ∧ s.working d = true) then
        match s.refusal d with
        | some r => s.refuse d r
        | none => if s.working d then s else s.agreed t d
      else s
    | [] => s
  | none => s

/-- DOMAIN_ANSWER (R272). -/
def execDomainAnswer (s : State) : Out := done s s.answer.afterTrans

/-- An engine's clock ran again after `n` ENG_CLK edges without one: what it counts by its clock goes on from where it stood (R272). -/
def Eng.later (x : Eng) (n : Nat) : Eng :=
  { x with takeAt := x.takeAt + n, startAt := x.startAt + n, readyAt := x.readyAt + n, doneAt := x.doneAt + n, testAt := x.testAt + n,
           idleAt := x.idleAt + n, faultAt := x.faultAt.map fun f => (f.1 + n, f.2),
           raiseAt := x.raiseAt.map fun r => (r.1 + 2 * n, r.2) }

/-- The engines of a cluster whose clock restarts go on (R272). -/
def State.resumeCluster (s : State) (c : Nat) : State :=
  let n := s.eng2 - mGet (fun _ => s.eng2) s.pwr.stopAt (8 + c)
  forEach ((s.engs.filter fun x => decide (x.1 / 16 = c) && x.2.st.busy).map Prod.fst) (fun e s => s.modEng e fun x => x.later n) s

/-- The effect of STRIKE_ANSWER_TIMEOUT: the silent domain counts as refusing; its work stops with its clock, and it is re-pitched
(R272). A reflex that had not ended goes on where it stood as the clock restarts: the spec gives it no other end (DESIGN CHOICE, log 128). -/
def State.silent (s : State) : State :=
  match s.pwr.trans with
  | some t => match t.ask with
    | d :: rest =>
      if t.ph = .asking ∧ t.asked + s.answerLimit ≤ s.slowEdge then
        ((s.stopDom d).modPwr fun p => { p with trans := some { t with ask := rest, stopped := d :: t.stopped } }).refuse d 5
      else s
    | [] => s
  | none => s

/-- STRIKE_ANSWER_TIMEOUT (R272). -/
def execStrikeAnswerTimeout (s : State) : Out := done s s.silent.afterTrans

/-- The re-pitch delay of a domain (R274). -/
def State.rp (s : State) (d : Nat) : Nat := orOne (s.pitch d 0)

/-- The intake's clock runs again: an input whose pin moved meanwhile is sensed (R274). -/
def State.catchUp (s : State) : State :=
  forEach (s.ins.map Prod.fst) (fun n s =>
    let lvl := xor (s.inp n).pin (bit (s.wcfg n) 1)
    if lvl = (s.inp n).level then s else s.filteredChange n lvl) s

/-- The effect of REPITCH: the domain that stopped last restarts (R274, R276). The intake's tick begins anew with its clock
(DESIGN CHOICE, log 91). -/
def State.repitch (s : State) : State :=
  match s.pwr.trans with
  | some t => match t.stopped with
    | d :: rest =>
      if t.ph = .undoing ∧ t.next ≤ s.slowEdge then
        let s := s.modPwr fun p => { p with clkOff := p.clkOff.filter (· ≠ d) }
        let s := if d = 1 then s.holdBases else if d = 0 then { s with tickAt := s.rank }.catchUp
          else if 8 ≤ d then s.resumeCluster (d - 8) else s
        s.modPwr fun p => { p with trans := some { t with stopped := rest, next := s.slowEdge + s.rp (rest.headD d) } }
      else s
    | [] => s
  | none => s

/-- REPITCH (R274). -/
def execRepitch (s : State) : Out := done s s.repitch

/-- The strike ends rp cycles after its last re-pitch (R274). -/
def State.endUndo (s : State) : State :=
  match s.pwr.trans with
  | some t => if t.ph = .undoing ∧ t.stopped.isEmpty ∧ t.next ≤ s.slowEdge then s.endTrans cRefused else s
  | none => s

/-! ## Acknowledgements and returns (R273, R276) -/

/-- The loader begins a start, as after a warm reset (R249, R276). The page registers stand as the returns left them. -/
def State.coldStart (s : State) : State :=
  (s.savePage s.pageUp).modLdr fun l => { l.fresh with sel := if l.ret.override then l.ret.sel else l.pins, startAt := s.rank }

/-- The retention SRAM switch is closed: the first domain to return is asked, or the asking begins (R271, R276, R277). -/
def State.ackClose (s : State) (t : Trans) : State :=
  if t.raise.head? = some 5 then
    let t := { t with raise := t.raise.drop 1 }
    let s := s.modPwr fun p => { p with ropen := false, trans := some t }
    if t.raise.isEmpty then s.afterRaise t else s.reqHead
  else s

/-- PMD_ACK is seen to show On for the domain that returns: its delay runs (R276). -/
def State.ackRaise (s : State) (t : Trans) (d : Nat) : State :=
  if d = 5 then s.ackClose t
  else if t.raise.head? = some d ∧ t.acked.isEmpty then
    let w := s.pitch d (if s.dom d = .off then 16 else 8)
    s.modPwr fun p => { p with trans := some { t with acked := [d], next := s.slowEdge + w } }
  else s

/-- PMD_ACK is seen to show a struck domain's target state, or the switch open (R273). -/
def State.ackStrike (s : State) (t : Trans) (d : Nat) : State :=
  if d = 5 then (if t.await = [5] then s.openRet.finish t else s)
  else if t.await.contains d ∧ t.next ≤ s.slowEdge then
    let t := { t with await := t.await.filter (· ≠ d) }
    let s := (s.setDom d (tgtOf t.tgt d)).modPwr fun p => { p with trans := some t }
    if t.await.isEmpty then s.complete t else s
  else s

/-- What the acknowledgement of a domain, as it is seen, lets follow (R273, R276). -/
def State.powerAck (s : State) (d : Nat) : State :=
  match s.pwr.trans with
  | some t =>
    let seen := tgtOf s.pwr.ack d
    match t.ph with
    | .raising => if seen = .on then s.ackRaise t d else s
    | .ckptWait => if seen = .on then s.ackRaise t d else s
    | .acking => if seen = (if d = 5 then .off else tgtOf t.tgt d) then s.ackStrike t d else s
    | _ => s
  | none => s

/-- POWER_ACK: PMD_ACK_d takes the state that PMD_REQ_d asks for, which is stable (R277). It is seen through two flops, at the second
SLOW_CLK edge. -/
def execPowerAck (d : Nat) (s : State) : Out :=
  done s (if d < 40 ∧ d ≠ 6 ∧ d ≠ 7 then s.modPwr fun p => { p with ackPin := mSet (fun _ => .on) p.ackPin d (tgtOf p.req d) } else s)

/-- The power requests of a strike go out, all at one edge (R273). -/
def State.reqStrike (s : State) : State :=
  match s.pwr.trans with
  | some t =>
    if t.ph = .acking ∧ t.next ≤ s.slowEdge ∧ t.await ≠ [5] then
      s.modPwr fun p => { p with req := t.await.foldl (fun m d => mSet (fun _ => .on) m d (tgtOf t.tgt d)) p.req }
    else s
  | none => s

/-- The synchronisers of the power manager's signals take one SLOW_CLK edge, and the strike controller acts on what they show
(R273, R276-R278). -/
def State.seePower (s : State) : State :=
  let s := s.modPwr fun p => { p with pmReq := p.pmMid, pmMid := p.pmPin, ack := p.ackMid, ackMid := p.ackPin }
  let s := if s.pwr.pmReq.isNone then s.modPwr fun p => { p with pmAck := false, pmOk := false } else s
  forEach (strikeOrder ++ [5]) (fun d s => s.powerAck d) s.reqStrike

/-- The effect of DOMAIN_RETURN: registers restored, clamps removed, clock started; after the last, the start sequence when
D_CORE or D_MEM was Off, and the strike (R271, R276). -/
def State.domainReturn (s : State) (d : Nat) : State :=
  match s.pwr.trans with
  | some t =>
    if (t.ph = .raising ∨ t.ph = .ckptWait) ∧ t.raise.head? = some d ∧ t.acked = [d] ∧ t.next ≤ s.slowEdge then
      let rest := t.raise.drop 1
      let t := { t with raise := rest, acked := [] }
      let s := (s.returnDom d).modPwr fun p => { p with trans := some t }
      let s := forEach (List.range (if d = 4 then s.log.pfWant else 0)) (fun _ s => s.powerFlush) s
      if t.ph = .raising ∧ rest.isEmpty then (if t.cold then s.coldStart else s).afterRaise t else s.reqHead
    else s
  | none => s

/-- DOMAIN_RETURN (R276). -/
def execDomainReturn (d : Nat) (s : State) : Out := done s (if d < 40 then (s.domainReturn d).afterTrans else s)

/-! ## Wakes (R279) -/

/-- I2C_WAKE: a START and an address byte; a matching one is acknowledged, in either direction, and requests a wake (R279). A detector
whose wake is not enabled acknowledges nothing (DESIGN CHOICE, log 101). -/
def execI2cWake (addr : BitVec 7) (s : State) : Out :=
  let ours := bit (s.reg 0x2830) 0 && decide (addr.toNat = fld (s.reg 0x282C) 0 7)
  done s (onlyIf ours (·.wake 0) (s.modPwr fun p => { p with i2cAck := ours }))

/-- The effect of WAKE_IN: a transition to the active level (R279). -/
def State.wakePin (s : State) (level : Bool) : State :=
  let rises := xor s.pwr.wakeIn level && (level != bit (s.reg 0x2830) 4)
  let s := s.modPwr fun p => { p with wakeIn := level }
  if rises && bit (s.reg 0x2830) 1 then s.wake 1 else s

/-- WAKE_IN (R279). -/
def execWakeIn (level : Bool) (s : State) : Out := done s (s.wakePin level)

/-! ## The SLOW_CLK edge (R33, R271, R274) -/

/-- The checkpoint of a D_MEM Off strike: D_NVM is returned, a running transaction ends, the checkpoint is made, and the
strike, or the refusal that waited, follows (R271, R335). `asked` tells that it has begun. -/
def State.ckptStep (s : State) : State :=
  match s.pwr.trans with
  | some t =>
    if t.ph ≠ .ckptWait then s
    else if t.asked = 0 then
      if s.domOn 4 = false then
        (if t.raise.isEmpty then (s.modPwr fun p => { p with trans := some { t with raise := [4], acked := [] } }).reqHead else s)
      else if s.nvmWanted ∨ s.ldr.erase.isSome ∨ s.log.ckptOn then s
      else s.startCkpt.modPwr fun p => { p with trans := some { t with asked := 1 } }
    else if s.log.ckptOn then s
    else if s.pwr.lateWake.isSome then (s.modPwr fun p => { p with lateWake := none }).refuse 5 6
    else if s.pwr.warmWait then s.refuse 5 7
    else s.afterRaise t
  | none => s

/-- The effect of SLOW_COPY_REFRESH: a SLOW_CLK edge (R33). The power manager's request is served before the commands of the edge
(R278). -/
def State.slowTick (s : State) : State :=
  let s := { s with slowEdge := s.slowEdge + 1, edge := { s.edge with lcnt := [] } }
  let s := s.modLog fun l => { l with slowRank := s.rank }
  s.seePower.endUndo.ckptStep.afterTrans.refreshSlow

/-- SLOW_COPY_REFRESH (R33). -/
def execSlowCopyRefresh (s : State) : Out := done s s.slowTick

end Sys2Proof.Machine
end

