-- ==== Sys2Proof/Machine/Commit.lean ====
section
/-! DEFINITION. Commits of table words: what a table-port WRITE stores under each field's owner, and what the word's chapter
lets follow from it (R38, R43, R51, R55, R90, R117, R121, R150, R173). -/

namespace Sys2Proof.Machine

/-- Words stored into an entry: only RW fields change, and what hardware did at this edge stands (R8, R38). -/
def State.storeWords (s : State) (tid idx : Nat) (ws : List (Nat × Word)) : State :=
  forEach ws (fun x s =>
    let inc := if isCnt tid x.1 then wd (counts s.edge.tcnt (tKey tid idx x.1)) else 0
    s.setTw tid idx x.1 (s.resolved tid idx x.1 (merge (s.tw tid idx x.1 - inc) x.2 (tblMask tid x.1)))) s

/-- Whether a list of words holds word `w`. -/
def hasWord (ws : List (Nat × Word)) (w : Nat) : Bool := ws.any fun x => decide (x.1 = w)

/-- Whether a value of DSP_ROUTE is a valid selector (R117). -/
def routeOk (w : Word) : Bool :=
  decide (fld w 0 3 < 4) && (if fld w 0 3 = 0 then decide (fld w 4 10 < 576) else decide (fld w 4 10 < 64))

/-- A commit of source-state words: an invalid route stays out; a changed key or route re-inserts the entry (R90, R117,
R121). -/
def State.commitSource (s : State) (p : Nat) (ws : List (Nat × Word)) : State :=
  let ws := ws.filter fun x => decide (x.1 ≠ 0) || routeOk x.2
  let r := s.route p
  let k := s.tw 0x01 p 2
  let s := s.storeWords 0x01 p ws
  let s := if s.tw 0x01 p 2 ≠ k then s.rekey p k else s
  if s.route p ≠ r then s.reroute p else s

/-- A commit of wired-input words: a limit of 0 holds stuck at 0, the bucket is filled, a polarity change moves the filtered
level, and a level-sensed input that is active tries to raise (R41, R43, R48, R51). -/
def State.commitWired (s : State) (n : Nat) (ws : List (Nat × Word)) : State :=
  let old := s.wcfg n
  let s := s.storeWords 0x02 n ws
  let s := if hasWord ws 1 ∧ fld (s.tw 0x02 n 1) 0 24 = 0 then s.modIn n fun x => { x with stuck := false, stuckCnt := 0 } else s
  let s := if hasWord ws 2 then
      s.modIn n fun x => { x with tokens := fld (s.tw 0x02 n 2) 0 8, refillTick := s.ticks } else s
  let lvl := xor (s.inp n).pin (bit (s.wcfg n) 1)
  let s := if bit old 1 ≠ bit (s.wcfg n) 1 ∧ lvl ≠ (s.inp n).level then s.filteredChange n lvl else s
  if old ≠ s.wcfg n then s.levelTry n else s

/-- A commit of context words (R150, R168, R171). -/
def State.commitCtx (s : State) (k : Nat) (ws : List (Nat × Word)) : State :=
  let old := s.ccfg k
  let new := match ws.find? fun x => decide (x.1 = 0) with
    | some x => merge old x.2 (tblMask 0x0A 0)
    | none => old
  let s := (s.ctxBefore k new).storeWords 0x0A k ws
  s.ctxAfter k old (hasWord ws 1 || hasWord ws 2)

/-- A commit of RFX_ECFG: the takes of this edge still see the old membership, and what follows the new one comes at the edge's end
(R173, R175). -/
def State.commitEng (s : State) (e : Nat) (ws : List (Nat × Word)) : State :=
  let old := s.tw 0x0B e 0
  let s := s.storeWords 0x0B e ws
  if s.tw 0x0B e 0 = old ∨ (mFind s.edge.ecfg e).isSome then s
  else { s with edge := { s.edge with ecfg := mPut s.edge.ecfg e old } }

/-- A commit of words into entry `idx` of table `tid`, at the apply edge (R38, R252). -/
def State.commit (s : State) (tid idx : Nat) (ws : List (Nat × Word)) : State :=
  let s := s.touched
  match tid with
  | 0x01 => s.commitSource idx ws
  | 0x02 => s.commitWired idx ws
  | 0x0A => s.commitCtx idx ws
  | 0x0B => s.commitEng idx ws
  | _ => s.storeWords tid idx ws

/-- A commit with its CFG journal entries, one per committed word (R285). -/
def State.commitNoted (s : State) (tid idx : Nat) (ws : List (Nat × Word)) : State :=
  let s := s.commit tid idx ws
  forEach ws (fun x s => s.noteWrite tid x.1 idx (s.tw tid idx x.1)) s

/-! ## Page registers -/

/-- What an image makes of a register's old value (R21, R22, R25): `rw` are the bits it may change, `mask` the byte lanes. -/
def imageOf (img : Sys2Proof.Image) (old data mask rw : Word) : Word :=
  match img with
  | .plain => merge old data (mask &&& rw)
  | .set => old ||| (data &&& rw)
  | .clr => old &&& ~~~(data &&& rw)
  | .tgl => old ^^^ (data &&& rw)

/-- INT_DP_CFGA_n takes a value: an instance that awaits the direct path and was not yet notified enters the pipeline when dp
falls, and else takes the new target and prio (R54, R55). -/
def State.setDp (s : State) (n : Nat) (v : Word) : State :=
  let was := bit (s.reg (0x0400 + 8 * n)) 0
  let s := s.setReg (0x0400 + 8 * n) v
  if (s.src n).place = .direct ∧ (s.src n).st = .pending ∧ (s.src n).told = none then
    if was ∧ bit v 0 = false then s.enter n
    else s.modSrc n fun x => { x with dst := fld v 16 9, key := { x.key with prio := fld v 8 8 } }
  else s

/-- INT_TICK_DIV takes a value: a change restarts the tick (R58). -/
def State.setTickDiv (s : State) (v : Word) : State :=
  let old := s.reg 0x0200
  let s := s.setReg 0x0200 v
  if fld old 0 20 ≠ fld v 0 20 then { s with tickAt := s.rank } else s

/-- RNK_GCFG takes a value: a change of dexp restarts the decay's period, a decay due at the edge being applied first (R84). -/
def State.setRnk (s : State) (v : Word) : State :=
  let old := s.reg 0x0800
  let s := if fld old 16 5 ≠ fld v 16 5 then { s.decay with decayAt := s.rank } else s
  s.setReg 0x0800 v

/-- A configuration register takes a value, with what its chapter lets follow (R55, R58, R84, R135, R283, R319). -/
def State.setCfg (s : State) (win off : Nat) (v : Word) : State :=
  if 0x1000 ≤ off ∧ off < 0x1400 ∧ off % 0x40 = 0 then s.setPhsCfg ((off - 0x1000) / 0x40) v
  else if 0x0400 ≤ off ∧ off < 0x0600 ∧ off % 8 = 0 then s.setDp ((off - 0x0400) / 8) v
  else match off with
  | 0x0200 => s.setTickDiv v
  | 0x0800 => s.setRnk v
  | 0x2C00 => (s.setReg off v).mirEnable (bit v 0)
  | 0x3408 =>
    let old := s.frozen
    (s.setReg off v).freezeTo old (bit v 0)
  | 0x3800 => (s.setRegW win off v).modWin win fun w => { w with snapValid := false }
  | _ => s.setRegW win off v

/-- CTX_CMD of a physical context (R171). -/
def State.ctxOp (s : State) (k op : Nat) : State :=
  match op with
  | 1 => s.cmdArm k
  | 2 => s.disarm k
  | 3 => s.cmdSquash k
  | _ => s

/-- PHS_CMD of a base (R142). -/
def State.phsOp (s : State) (n : Nat) (w : Word) : State :=
  let s := if bit w 0 then s.zeroBase n else s
  if bit w 1 then s.releaseBase n else s

end Sys2Proof.Machine
end

