-- ==== Sys2Proof/Machine/TenantView.lean ====
section
/-! DEFINITION. What a tenant's window reaches: hidden registers, its own numbering, the translations both ways, and the
checks of its commits (R59, R77, R99, R124, R146, R172, R189, R227-R242, R311, R337). -/

namespace Sys2Proof.Machine

/-! ## Maps (R232-R237) -/

/-- The target-map word of a tenant's VTN. -/
def State.tmap (s : State) (v t : Nat) : Word := s.tw 0x16 (32 * v + t / 16) (t % 16)

/-- The target a VTN names (R234). -/
def State.vtnTarget (s : State) (v t : Nat) : Option Nat :=
  if t < 512 ∧ bit (s.tmap v t) 15 then some (fld (s.tmap v t) 0 9) else none

/-- Byte k of the tenant's pool or group words, from word `w` on. -/
def State.tenByte (s : State) (v w k : Nat) : Nat := fld (s.ten v (w + k / 4)) (8 * (k % 4)) 8

/-- The pool a tenant's pool number names (R235). -/
def State.poolOf (s : State) (v p : Nat) : Option Nat :=
  if p < 8 ∧ 128 ≤ s.tenByte v 7 p then some (s.tenByte v 7 p % 64) else none

/-- The group a tenant's group number names (R235). -/
def State.groupOf (s : State) (v q : Nat) : Option Nat :=
  if q < 4 ∧ 128 ≤ s.tenByte v 9 q then some (s.tenByte v 9 q % 64) else none

/-- The destination a tenant's destination number names (R234, R235). -/
def State.destOf (s : State) (v d : Nat) : Option Nat :=
  if d < 512 then s.vtnTarget v d else (s.poolOf v (d - 512)).map (512 + ·)

/-- Whether the tenant may configure a destination of its own numbering (R234, R235). -/
def State.ownDest (s : State) (v d : Nat) : Bool :=
  if d < 512 then bit (s.tmap v d) 14 else decide (64 ≤ s.tenByte v 7 (d - 512) % 128)

/-- The lowest VTN that names a target, zero when none does (R236). -/
def State.revTarget (s : State) (v t : Nat) : Nat :=
  ((List.range 512).find? fun n => decide (s.vtnTarget v n = some t)).getD 0

/-- The tenant's number of a destination, zero when it maps none (R236). -/
def State.revDest (s : State) (v d : Nat) : Nat :=
  if d < 512 then s.revTarget v d
  else (((List.range 8).find? fun p => decide (s.poolOf v p = some (d - 512))).map (512 + ·)).getD 0

/-- The tenant's number of a group, zero when it maps none (R236). -/
def State.revGroup (s : State) (v g : Nat) : Nat := ((List.range 4).find? fun q => decide (s.groupOf v q = some g)).getD 0

/-- The VSN of a source the tenant maps, zero otherwise (R124). -/
def State.revSource (s : State) (v p : Nat) : Nat := if s.mappedTo p = some v then s.sidVtag p else 0

/-- A grant of the tenant's range words: base and count (R237). -/
def State.grantBase (s : State) (v w : Nat) : Nat := fld (s.ten v w) 0 12
def State.grantCount (s : State) (v w : Nat) : Nat := fld (s.ten v w) 16 13
/-- Slots granted. -/
def State.slotBase (s : State) (v : Nat) : Nat := fld (s.ten v 6) 0 9
def State.slotCount (s : State) (v : Nat) : Nat := fld (s.ten v 6) 16 10

/-- Whether a destination belongs to a tenant. -/
def State.hasDest (s : State) (v d : Nat) : Bool :=
  if d < 512 then (List.range 512).any fun n => decide (s.vtnTarget v n = some d)
  else (List.range 8).any fun p => decide (s.poolOf v p = some (d - 512))

/-! ## Table entries (R345) -/

/-- An index of a range grant. -/
def inRange (base count i : Nat) : Option Nat := if i < count then some (base + i) else none

/-- The entry a tenant's index names, none outside its mapping (R229, R232-R237, R337, R345). -/
def State.tenEntry (s : State) (v tid i : Nat) : Option Nat :=
  let e := match tid with
    | 0x01 => s.mapSlot v i
    | 0x02 => (s.mapSlot v i).filter isWired
    | 0x03 => ((s.mapSlot v i).filter isMsg).map (· - psnMsg)
    | 0x05 => s.destOf v i
    | 0x08 => s.destOf v i
    | 0x0A => inRange (s.grantBase v 3) (s.grantCount v 3) i
    | 0x0C => s.poolOf v i
    | 0x0D => inRange (s.grantBase v 4) (s.grantCount v 4) i
    | 0x0E => s.mapSlot v i
    | 0x0F => inRange (s.grantBase v 5) (s.grantCount v 5) i
    | 0x10 => inRange (16 * s.slotBase v) (16 * s.slotCount v) i
    | 0x19 => if bit (s.ten v 10) 16 then s.mapSlot v i else none
    | 0x1A => if bit (s.ten v 10) 16 ∧ i = 0 then some v else none
    | _ => none
  e.filter (tblHas tid)

/-- The entry a window's TBL_SEL names (R37, R229). -/
def State.selEntry (s : State) (win tid i : Nat) : Option Nat :=
  if win = 0 then (if tblHas tid i then some i else none) else s.tenEntry (win - 1) tid i

/-- A field less a base, in its own width. -/
def lessBase (w : Word) (lo n base : Nat) : Word := setFld w lo n (fld w lo n + 2 ^ n - base % 2 ^ n)

/-- A field with a base added, none when the sum does not fit the field (R237). -/
def addBase (w : Word) (lo n base : Nat) : Option Word :=
  if fld w lo n + base < 2 ^ n then some (setFld w lo n (fld w lo n + base)) else none

/-- A table word as a tenant reads it (R99, R124, R236, R237). RNK_SSTAT.dest of a source that a mapped pool holds reads 512 + p, as R236
translates a destination, where R99 names only a mapped target (DEDUCED, log 137). -/
def State.tenWord (s : State) (v tid w : Nat) (x : Word) : Word :=
  match tid, w with
  | 0x01, 0 => setFld x 4 10 (if fld x 0 3 = 0 then s.revDest v (fld x 4 10) else s.revGroup v (fld x 4 10))
  | 0x01, 1 =>
    let x := setFld x 6 9 (if bit x 31 then s.revTarget v (fld x 6 9) else 0)
    setFld x 15 15 (if bit x 30 then s.revSource v (fld x 15 15) else 0)
  | 0x01, 2 => setFld x 16 8 0
  | 0x01, 3 => setFld x 5 10 (if bit x 3 || bit x 4 then s.revDest v (fld x 5 10) else 0)
  | 0x08, 1 => setFld x 16 15 (if bit x 31 then s.revSource v (fld x 16 15) else 0)
  | 0x05, 2 => 0
  | 0x05, 3 => 0
  | 0x0D, 0 => lessBase x 0 16 (16 * s.grantBase v 5)
  | 0x0D, 2 => lessBase x 0 9 (s.slotBase v)
  | 0x0E, 0 => lessBase x 0 12 (s.grantBase v 4)
  | _, _ => x

/-- A committed word of a tenant, translated, or none when it names something outside its grant (R229, R234-R238). `i` is
the tenant's own index of the entry `e`. -/
def State.tenCommit (s : State) (v tid i e w : Nat) (x : Word) : Option Word :=
  match tid, w with
  | 0x01, 0 =>
    if fld x 0 3 = 0 then (s.destOf v (fld x 4 10)).map (setFld x 4 10)
    else if fld x 0 3 < 4 then (s.groupOf v (fld x 4 10)).map (setFld x 4 10) else some x
  | 0x01, 2 =>
    if s.inBand v (fld x 0 2) (fld x 8 8) then some (setFld x 16 8 (s.stenant e)) else none
  | 0x0A, 0 => if bit (s.ten v 10) (fld x 1 4) then some x else none
  | 0x0D, 0 =>
    if fld x 0 16 + fld x 16 13 ≤ 16 * s.grantCount v 5 then addBase x 0 16 (16 * s.grantBase v 5) else none
  | 0x0D, 2 =>
    if bit x 9 then (if fld x 0 9 < s.slotCount v then addBase x 0 9 (s.slotBase v) else none)
    else some (setFld x 0 9 ((fld x 0 9 + s.slotBase v) % 2 ^ 9))
  | 0x0E, 0 => if fld x 0 12 < s.grantCount v 4 then addBase x 0 12 (s.grantBase v 4) else none
  | _, _ =>
    let guarded := (decide (tid = 0x05) && (decide (w = 0) || decide (5 ≤ w ∧ w ≤ 8)))
      || (decide (tid = 0x08) && (decide (w = 0) || decide (3 ≤ w ∧ w ≤ 8))) || decide (tid = 0x0C)
    if guarded && !(s.ownDest v (if tid = 0x0C then 512 + i else i)) then none else some x

/-- Every committed word of a tenant translated, or none (R229). -/
def State.tenCommits (s : State) (v tid i e : Nat) : List (Nat × Word) → Option (List (Nat × Word))
  | [] => some []
  | x :: t => match s.tenCommit v tid i e x.1 x.2, s.tenCommits v tid i e t with
    | some y, some l => some ((x.1, y) :: l)
    | _, _ => none

/-- Whether a commit is refused for the band (R238). -/
def State.outOfBand (s : State) (v tid : Nat) (ws : List (Nat × Word)) : Bool :=
  decide (tid = 0x01) && ws.any fun x => decide (x.1 = 2) && !s.inBand v (fld x.2 0 2) (fld x.2 8 8)

/-! ## Page registers (R59, R77, R99, R124, R146, R172, R189, R227, R241, R242) -/

/-- Whether a register of the index is hidden from a tenant's reads. R124 says both that DSP_GRP_g.fback reads the tenant's VTN, as R236 has
it, and that DSP_GRP_g reads zero in a tenant window: the field fback is translated, the rest reads zero (DEDUCED, log 106). -/
def State.hidden (s : State) (v off : Nat) : Bool :=
  let grant := s.ten v 10
  if off < 0x0200 then false
  else if off < 0x0600 then decide (off ≠ 0x0204)
  else if off < 0x0800 then decide (off ≠ 0x0604)
  else if off < 0x0C00 then !([0x0804, 0x0814, 0x081C].contains off)
  else if off < 0x1000 then !([0x0C00, 0x0C10].contains off || (decide (0x0D00 ≤ off) && decide (off < 0x0E00)))
  else if off < 0x1400 then !(bit grant ((off - 0x1000) / 0x40) && [0x20, 0x24, 0x28, 0x2C].contains (off % 0x40))
  else if off < 0x1800 then !([0x1404, 0x1408].contains off)
  else if off < 0x1C00 then decide (off ≠ 0x1804)
  else if off < 0x2800 then true
  else if off < 0x2C00 then !(bit grant 17 && [0x2804, 0x2814, 0x2818, 0x281C].contains off)
  else if off < 0x3000 then true
  else if off < 0x3400 then decide (off < 0x33C0)
  else if off < 0x3800 then
    !([0x3500, 0x3504, 0x3508, 0x350C].contains off || (bit grant 16 && decide (0x3480 ≤ off) && decide (off < 0x3500)))
  else false

/-- Whether a tenant's write of a register lies outside its mapping: REC_CAL and DSP_GRP_g are readable only (R124, R242, R337). -/
def State.hiddenWr (s : State) (v off : Nat) : Bool :=
  s.hidden v off || decide (off = 0x3500) || decide (off = 0x3504) || (decide (0x0D00 ≤ off) && decide (off < 0x0E00))

/-- The tenant's own copy of its table entry, physical fields reading zero (R241, R343). -/
def copyMask (w : Nat) : Word :=
  if w = 2 then 0xFFFF8000 else if 3 ≤ w ∧ w ≤ 6 then 0xFFFF0000 else if 7 ≤ w ∧ w ≤ 9 then 0xC0C0C0C0 else 0xFFFFFFFF

/-- Whether an engine works for one of the tenant's pools. -/
def State.tenEngine (s : State) (v e : Nat) : Bool := (List.range 8).any fun p => match s.poolOf v p with
  | some q => decide (s.poolNow e = some q)
  | none => false

/-- A register that is not hidden, as a tenant reads it. -/
def State.tenReg (s : State) (v off : Nat) : Word :=
  let win := v + 1
  let mine := fun (p : Nat) => decide (s.mappedTo p = some v)
  match off with
  | 0x0204 => wd (at_ (s.ins.filter fun x => x.2.stuck && mine x.1).length 0 12
      + at_ ((List.range 2048).filter fun n => s.storm n && mine n).length 16 12)
  | 0x0604 => wd (at_ (s.tenUsed v) 0 17 + at_ (b2n (decide (fld (s.tw 0x04 v 0) 0 17 ≤ s.tenUsed v))) 17 1)
  | 0x0804 => wd (at_ (b2n ((List.range 576).any fun d => s.c1over d && s.hasDest v d)) 16 1)
  | 0x0C00 => wd (at_ (s.dsts.filter fun x => (x.2.offer.isSome || x.2.c0.isSome) && s.hasDest v x.1).length 0 10
      + at_ (s.srcs.filter fun x => x.2.st == .active && mine x.1).length 16 15)
  | 0x1404 => wd (at_ (s.ctxs.filter fun x => (!x.2.entries.isEmpty || x.2.waiting) && s.ctxOwned v x.1).length 0 13
      + at_ ((s.occs.filter fun x => s.ctxOwned v x.2.ctx).foldl (fun n x => n + x.2.places.length) 0) 16 13)
  | 0x1804 => wd (at_ ((List.range 512).filter fun e => s.tenEngine v e && (s.eng e).st.busy).length 0 10
      + at_ ((List.range 512).filter fun e => s.tenEngine v e && (s.eng e).st == .fault && s.domOn (engDom e)).length 16 10)
  | 0x3808 =>
    let w := s.win win
    let sel := s.regW win 0x3800
    wd (b2n w.busy + at_ (b2n w.snapValid) 1 1 + at_ (b2n (decide (s.rank ≠ 0) && (s.selEntry win (fld sel 24 8) (fld sel 0 24)).isNone)) 2 1)
  | _ =>
    if 0x0100 ≤ off ∧ off < 0x0130 then s.readReg win off &&& copyMask ((off - 0x100) / 4)
    else if 0x0D00 ≤ off ∧ off < 0x0E00 then wd (s.revTarget v (fld (s.reg off) 0 9))
    else s.readReg win off

/-- A register as window `win` reads it (R228, R229). -/
def State.winReg (s : State) (win off : Nat) : Word :=
  if (regAt off).isNone then 0
  else if win = 0 then s.readReg 0 off
  else if s.hidden (win - 1) off then 0 else s.tenReg (win - 1) off

end Sys2Proof.Machine
end

