-- ==== Sys2Proof/Machine/RegisterPort.lean ====
section
/-! DEFINITION. The register port: accesses through every window and image, access errors, 64-bit registers, posted lantern
writes and table ports (R21-R39, R228-R231, R242, R285, R348). -/

namespace Sys2Proof.Machine

/-! ## Accesses and their errors (R21, R24-R29) -/

/-- Bytes of an access. -/
def sizeBytes : Size → Nat
  | .b8 => 1 | .b16 => 2 | .b32 => 4 | .b64 => 8

/-- Whether it is an 8-bit or 16-bit access. -/
def PortAccess.narrow (a : PortAccess) : Bool := decide (sizeBytes a.size < 4)

/-- One word of an access: its register, the data and the byte lanes. -/
structure PortWord where
  reg : Nat
  data : Word
  mask : Word
  deriving DecidableEq, Repr

/-- The words of an aligned access, the low one first (R24, R26). -/
def PortAccess.parts (a : PortAccess) : List PortWord :=
  let r := a.regOff - a.regOff % 4
  let n := sizeBytes a.size
  if n = 8 then [{ reg := r, data := lo32 a.data, mask := 0xFFFFFFFF }, { reg := r + 4, data := hi32 a.data, mask := 0xFFFFFFFF }]
  else [{ reg := r, data := if r % 8 = 4 then hi32 a.data else lo32 a.data,
          mask := wd ((2 ^ (8 * n) - 1) * 2 ^ (8 * (a.regOff % 4))) }]

/-- The TBL_SEL a TBL_CMD of an access acts with: that of the same 64-bit access, else the stored one (R26). -/
def State.selOf (s : State) (a : PortAccess) : Word := match a.parts.find? fun w => decide (w.reg = 0x3800) with
  | some w => w.data
  | none => s.regW a.win 0x3800

/-- Whether a table-port command of an access reaches the entry its selector names: the entry exists for the window, and a
tenant's WRITE needs its en (R38, R229, R231). -/
def State.reaches (s : State) (a : PortAccess) (op : Nat) : Bool :=
  let sel := s.selOf a
  (s.selEntry a.win (fld sel 24 8) (fld sel 0 24)).isSome && !(decide (0 < a.win) && decide (op = 2) && !s.tenOn (a.win - 1))

/-- The domains a word of an access reaches (the table "Register domain by page"): its register's, and for a table-port READ
or WRITE that reaches an entry the table's. -/
def State.wordDomains (s : State) (a : PortAccess) (w : PortWord) : List Nat :=
  let op := fld w.data 0 2
  if w.reg = 0x3804 ∧ a.wr ∧ a.img = .plain ∧ (op = 1 ∨ op = 2) ∧ s.reaches a op then
    [regDomain w.reg, tblDomain (fld (s.selOf a) 24 8)] else [regDomain w.reg]

/-- The physical context a CTX_CMD word names, as its window numbers contexts (R171, R237). -/
def State.cmdCtx (s : State) (win : Nat) (w : Word) : Option Nat :=
  if win = 0 then some (fld w 0 12)
  else (inRange (s.grantBase (win - 1) 3) (s.grantCount (win - 1) 3) (fld w 0 12)).filter fun k => decide (k < 4096)

/-- Whether a write is outside its tenant's mapping (R229, R231). -/
def State.outsideMap (s : State) (a : PortAccess) (row : RegRow) (w : PortWord) : Bool :=
  decide (0 < a.win) && a.wr &&
  (s.hiddenWr (a.win - 1) w.reg || (!s.tenOn (a.win - 1) && !row.win) || (decide (w.reg = 0x1408) && (s.cmdCtx a.win w.data).isNone))

/-- Whether a word waits in the posted queue: every write of a lantern register but a plain low word, which is staged
(R32, R34). -/
def isPosted (a : PortAccess) (row : RegRow) : Bool := row.lan && !(row.kind == .lowWord && a.img == .plain)

/-- The words of an access that wait in the posted queue. -/
def PortAccess.posts (a : PortAccess) : Nat := (a.parts.filter fun w => match regAt w.reg with
  | some row => isPosted a row
  | none => false).length

/-- The reason an access is refused at one of its words, none when it is not (R25, R27-R29, R32, R34, R229, R231). Where several
reasons hold, the order here decides; at a location that holds no register none does (DESIGN CHOICE, log 84, log 85). -/
def State.wordErr (s : State) (a : PortAccess) (w : PortWord) : Option Nat :=
  match regAt w.reg with
  | none => none
  | some row =>
    if s.outsideMap a row w then some 6
    else if a.wr && a.narrow && (a.img ≠ .plain || row.kind == .cmd || row.kind == .lowWord || row.kind == .highWord) then some 2
    else if a.wr = false ∧ 0 < a.win ∧ s.hidden (a.win - 1) w.reg then none
    else if (s.wordDomains a w).any s.domStill then some 3
    else if a.wr ∧ row.kind = .highWord ∧ a.img = .plain ∧ a.size ≠ .b64 ∧ ((s.win a.win).wstage.map Prod.fst) ≠ some (w.reg - 4) then some 4
    else if a.wr ∧ isPosted a row ∧ 4 < (s.win a.win).posted.length + a.posts then some 5
    else none

/-- The reason an access is refused, when it is (R26, R28). UNALIGNED is judged first, at a reserved location too (DESIGN
CHOICE, log 84, log 85). -/
def State.portErr (s : State) (a : PortAccess) : Option Nat :=
  if a.regOff % sizeBytes a.size ≠ 0 then some 1 else a.parts.findSome? (s.wordErr a)

/-- The pages on which the port holds accesses while a unit is busy: a window's table port and recorder cursor, the steward's
mapping commands and loader commands (R39, R233, R320; log 86). -/
inductive HeldPage where
  | table | cursor | map | loader
  deriving DecidableEq, Repr

/-- The page of holding that an access lies on. -/
def PortAccess.heldPage (a : PortAccess) : Option HeldPage :=
  let o := a.regOff
  if 0x3800 ≤ o ∧ o < 0x3C00 then some .table
  else if 0x3480 ≤ o ∧ o < 0x3500 then some .cursor
  else if a.win = 0 ∧ 0x2000 ≤ o ∧ o < 0x2400 then some .map
  else if a.win = 0 ∧ 0x2400 ≤ o ∧ o < 0x2800 then some .loader
  else none

/-- Whether an access is a plain write that reaches a register. -/
def PortAccess.commands (a : PortAccess) (reg : Nat) : Bool :=
  a.wr && decide (a.img = .plain) && a.parts.any fun w => decide (w.reg = reg)

/-- Whether the unit behind a page makes an access wait: every access of a window's busy port, the command itself at a busy
mapping unit or loader (R39, R233). -/
def State.unitBusy (s : State) (p : HeldPage) (a : PortAccess) : Bool :=
  match p with
  | .table => (s.win a.win).busy
  | .cursor => (s.win a.win).recBusy
  | .map => !s.flush.isEmpty && a.commands 0x2004
  | .loader => s.ldr.busy && a.commands 0x2400

/-- The accesses held on a page of a window. -/
def State.heldOn (s : State) (p : HeldPage) (win : Nat) : List PortAccess :=
  match p with
  | .table => (s.win win).held
  | .cursor => (s.win win).recHeld
  | .map => s.mapHeld
  | .loader => s.ldr.held

/-- The accesses held on a page of a window, replaced. -/
def State.setHeld (s : State) (p : HeldPage) (win : Nat) (l : List PortAccess) : State :=
  match p with
  | .table => s.modWin win fun w => { w with held := l }
  | .cursor => s.modWin win fun w => { w with recHeld := l }
  | .map => { s with mapHeld := l }
  | .loader => { s with ldr := { s.ldr with held := l } }

/-- The page that holds an access: its unit is busy, or an earlier access of the page is held (R36, R39). -/
def State.holdPage (s : State) (a : PortAccess) : Option HeldPage :=
  a.heldPage.filter fun p => s.unitBusy p a || !(s.heldOn p a.win).isEmpty

/-! ## Reads (R24, R31) -/

/-- A read of one word: a low word latches the high one, a high word comes from the shadow when its tag names it (R31). A tenant's read of a
hidden register, which reads zero (R229), leaves the window's shadow as it was (DESIGN CHOICE, log 136). -/
def State.readWord (s : State) (win reg : Nat) : State × Word :=
  match regAt reg with
  | none => (s, 0)
  | some row =>
    if 0 < win ∧ s.hidden (win - 1) reg then (s, 0)
    else match row.kind with
    | .lowWord => (s.modWin win fun w => { w with shadow := some (reg, s.winReg win (reg + 4)) }, s.winReg win reg)
    | .highWord => (s, match (s.win win).shadow with
        | some (r, h) => if r + 4 = reg then h else s.winReg win reg
        | none => s.winReg win reg)
    | _ => (s, s.winReg win reg)

/-- A read of the words of an access, on their lanes (R24, R26). -/
def State.readWords (s : State) (win : Nat) : List PortWord → State × W64
  | [] => (s, 0)
  | p :: t =>
    let x := s.readWord win p.reg
    let y := x.1.readWords win t
    let v := x.2 &&& p.mask
    (y.1, y.2 ||| (if p.reg % 8 = 4 then mk64 0 v else mk64 v 0))

/-! ## Table ports (R37, R38, R229, R295) -/

/-- The words of an entry, as window `win` reads them. -/
def State.entryRead (s : State) (win tid idx : Nat) : List Word :=
  (List.range 16).map fun w =>
    if win = 0 then s.tableWord tid idx w else s.tenWord (win - 1) tid w (s.tableWord tid idx w)

/-- The words of a buffer. -/
def bufOf (ws : List Word) : SMap Word := ((List.range ws.length).zip ws).filter fun x => decide (x.2 ≠ 0)

/-- The words staged under a write mask. -/
def staged (b : SMap Word) (wmask : Nat) : List (Nat × Word) := (maskWords wmask).map fun w => (w, mGet (fun _ => 0) b w)

/-- The function an uncorrectable error of a table's storage is charged to: a context's, else the device's (R302). -/
def eccFunc (tid idx : Nat) : Nat := if tid = 0x0A then fnCtx idx else fnDevice

/-- TBL_CMD READ (R37). -/
def State.tblRead (s : State) (win tid i : Nat) (ecc : Bool) : State :=
  let s := s.modWin win fun w => { w with busy := true, busyWr := false }
  match s.selEntry win tid i with
  | none =>
    let s := if 0 < win then s.noteMap (win - 1) 2 i else s
    s.modWin win fun w => { w with snap := [], stage := [], snapValid := false }
  | some e =>
    let r := if ecc then (s.fault 0x01 (eccFunc tid e)).freeWords 16 else (s, s.entryRead win tid e)
    let b := bufOf r.2
    r.1.modWin win fun w => { w with snap := b, stage := b, snapValid := true }

/-- TBL_CMD WRITE (R38, R229, R231). -/
def State.tblWrite (s : State) (win tid i wmask : Nat) : State :=
  let ws := staged (s.win win).stage wmask
  let s := s.modWin win fun w => { w with busy := true, busyWr := true }
  if win = 0 then (match s.selEntry 0 tid i with
    | some e => s.commitNoted tid e ws
    | none => s)
  else
    let v := win - 1
    if s.tenOn v = false then s.noteMap v 3 i
    else match s.selEntry win tid i with
    | none => s.noteMap v 2 i
    | some e => match s.tenCommits v tid i e ws with
      | some ws => s.commitNoted tid e ws
      | none => (onlyIf (s.outOfBand v tid ws) (·.bumpTw 0x14 v 13) s).noteMap v 3 i

/-- What TBL_CMD does with a word. -/
def State.tblCmd (s : State) (win : Nat) (w : Word) (ecc : Bool) : State :=
  let sel := s.regW win 0x3800
  match fld w 0 2 with
  | 1 => s.tblRead win (fld sel 24 8) (fld sel 0 24) ecc
  | 2 => s.tblWrite win (fld sel 24 8) (fld sel 0 24) (fld w 16 16)
  | _ => s

/-! ## Writes (R21, R22, R25, R32, R34, R35) -/

/-- What a plain write of a command or commit register does. -/
def State.cmdWrite (s : State) (win reg : Nat) (w : Word) (ecc : Bool) : State :=
  if 0x1000 ≤ reg ∧ reg < 0x1400 then s.phsOp ((reg - 0x1000) / 0x40) w
  else if 0x2440 ≤ reg ∧ reg < 0x2460 then s.setReg reg w
  else match reg with
  | 0x1408 => (match s.cmdCtx win w with
    | some k => s.ctxOp k (fld w 12 3)
    | none => s)
  | 0x2004 => s.mapOp w
  | 0x2400 => s.ldrOp w
  | 0x2C10 => s.mirOp w
  | 0x3008 => s.sntOp w
  | 0x340C => s.recCmd (fld w 0 3)
  | 0x3484 => s.cursorCmd win (fld w 0 3) (fld w 4 2)
  | 0x3804 => s.tblCmd win w ecc
  | _ => s

/-- A configuration register or a counter takes a value: it is journaled when the steward wrote a register that is not a
window's own (R285). -/
def State.cfgWrite (s : State) (win reg : Nat) (row : RegRow) (v : Word) : State :=
  let s := s.setCfg win reg v
  onlyIf (decide (win = 0) && !row.win) (·.noteWrite 0xF0 0 reg v) s

/-- A write enters its window's posted queue (R34). -/
def State.post (s : State) (win : Nat) (p : Posted) : State :=
  s.modWin win fun w => { w with posted := w.posted ++ [p], postedAt := if w.posted.isEmpty then s.slowEdge else w.postedAt }

/-- A write of a lantern register: a plain low word is staged; a high word takes the staged one with it; the rest waits as it
is, under the window offset it was made at (R32, R34). -/
def State.lanWrite (s : State) (a : PortAccess) (row : RegRow) (w : PortWord) : State :=
  let at_ := a.off - a.off % 0x4000 + w.reg
  let off := if a.narrow then a.off else if row.kind = .highWord ∧ a.size = .b64 then at_ - 4 else at_
  match row.kind, a.img with
  | .lowWord, .plain => s.modWin a.win fun x => { x with wstage := some (w.reg, w.data) }
  | .highWord, .plain =>
    let lo := ((s.win a.win).wstage.map Prod.snd).getD 0
    (s.modWin a.win fun x => { x with wstage := none }).post a.win
      { off := off, img := .plain, data := lo, mask := w.mask, hi := some w.data }
  | _, img => s.post a.win { off := off, img := img, data := w.data, mask := w.mask }

/-- A write of one word at its apply edge. -/
def State.writeWord (s : State) (a : PortAccess) (w : PortWord) : State :=
  match regAt w.reg with
  | none => s
  | some row =>
    let s := onlyIf (decide (s.mir.role = .standby)) (·.bump 0x2C44) s
    if row.lan then s.lanWrite a row w
    else match row.kind with
    | .ro => s
    | .lowWord => if a.img = .plain then s.modWin a.win fun x => { x with wstage := some (w.reg, w.data) } else s
    | .highWord => if a.img = .plain then s.modWin a.win fun x => { x with wstage := none } else s
    | .cmd => if a.img = .plain then s.cmdWrite a.win w.reg w.data a.ecc else s
    | .cnt => if a.img = .plain then 
        let inc := s.onTop (regKey a.win w.reg)
        s.cfgWrite a.win w.reg row (merge (s.regW a.win w.reg - inc) w.data w.mask + inc) else s
    | .cfg =>
      if 0x3840 ≤ w.reg ∧ w.reg < 0x3880 then
        let k := (w.reg - 0x3840) / 4
        s.modWin a.win fun x =>
          { x with stage := mSet (fun _ => 0) x.stage k (imageOf a.img (mGet (fun _ => 0) x.stage k) w.data w.mask 0xFFFFFFFF) }
      else s.cfgWrite a.win w.reg row (imageOf a.img (s.regW a.win w.reg) w.data w.mask row.rw)

/-- A write of the words of an access, the low one first (R26). -/
def State.writeWords (s : State) (a : PortAccess) : List PortWord → State
  | [] => s
  | w :: t => (s.writeWord a w).writeWords a t

/-! ## One access -/

/-- An access outside the mapping is counted against its tenant beside the error (R230). -/
def State.refuseAccess (s : State) (a : PortAccess) (code : Nat) : State :=
  let s := if code = 6 then s.noteMap (a.win - 1) 1 a.off else s
  s.accErr a code

/-- An access at its apply edge: refused with an error, or its words written or read (R21-R35, R348). -/
def State.portAct (s : State) (a : PortAccess) : State :=
  match s.portErr a with
  | some code => s.refuseAccess a code
  | none =>
    if a.wr then (s.writeWords a a.parts).respond { id := a.id }
    else
      let r := s.readWords a.win a.parts
      r.1.respond { id := a.id, data := r.2, err := false, code := 0 }

/-- The accesses accepted and not yet answered: those that are held (R348). -/
def State.unanswered (s : State) : Nat :=
  (s.wins.map fun x => x.2.held.length + x.2.recHeld.length).sum + s.mapHeld.length + s.ldr.held.length

/-- REG_READY: low only while 64 accepted accesses wait for their answer (R348). -/
def State.regReady (s : State) : Bool := decide (s.unanswered < 64)

/-- An access of the register port (R21-R39, R348): it waits outside while REG_READY is low. A window above V255's is unimplemented
(R27; log 85). The requester's tags count its accesses (log 124). -/
def State.portAccess (s : State) (a : PortAccess) : State :=
  if s.regReady = false then s
  else
    let a := { a with id := s.regTag }
    let s := { s with regTag := s.regTag + 1 }
    if 257 ≤ a.win then s.respond { id := a.id }
    else match s.holdPage a with
    | some p => s.setHeld p a.win (s.heldOn p a.win ++ [a])
    | none => s.portAct a

/-- The accesses held on a page act in order until one finds its unit busy (R36, R39). `n` bounds their number. -/
def State.runHeldN : Nat → HeldPage → Nat → State → State
  | 0, _, _, s => s
  | n + 1, p, win, s => match s.heldOn p win with
    | a :: rest => if s.unitBusy p a then s else State.runHeldN n p win ((s.setHeld p win rest).portAct a)
    | [] => s

/-- The accesses held on a page act, now that its unit may be free (R39). -/
def State.runHeld (s : State) (p : HeldPage) (win : Nat) : State := State.runHeldN (s.heldOn p win).length p win s

/-! ## The posted queue (R33, R34) -/

/-- A posted write acts on the live lantern value. -/
def State.applyPosted (s : State) (p : Posted) : State :=
  let reg := p.off % 0x4000
  let off := reg - reg % 4
  match p.hi, regAt off with
  | some h, _ => s.loadCal (mk64 p.data h)
  | none, some row =>
    (match row.kind with
    | .cmd => if p.img = .plain ∧ off = 0x2800 then s.pwrOp p.data else s
    | .cfg =>
      let v := imageOf p.img (s.reg off) p.data p.mask row.rw
      if off = 0x2830 then s.setWcfg v else s.setReg off v
    | .cnt => if p.img = .plain then s.setReg off (merge (s.reg off - s.onTop off) p.data p.mask + s.onTop off) else s
    | _ => s)
  | none, none => s

/-- A steward's posted write that committed words has its CFG entries, the calendar's of both its words (R285). -/
def State.notePosted (s : State) (win : Nat) (p : Posted) : State :=
  let reg := p.off % 0x4000
  let off := reg - reg % 4
  if win ≠ 0 then s
  else match p.hi, regAt off with
  | some h, _ => (s.noteWrite 0xF0 0 0x3500 p.data).noteWrite 0xF0 0 0x3504 h
  | none, some row =>
    if row.kind = .cfg ∨ (row.kind = .cnt ∧ p.img = .plain) then s.noteWrite 0xF0 0 off (s.reg off) else s
  | none, none => s

/-- The effect of POSTED_WRITE_APPLY: the head of a window's queue, at most one per SLOW_CLK edge (R34). -/
def State.postedApply (s : State) (win : Nat) : State :=
  match (s.win win).posted with
  | p :: rest =>
    if (s.win win).postedAt < s.slowEdge ∧ (s.win win).appliedAt ≠ some s.slowEdge then
      ((s.modWin win fun w => { w with posted := rest, appliedAt := some s.slowEdge }).applyPosted p).refreshSlow.notePosted win p
    else s
  | [] => s

/-! ## The rows -/

/-- An access with the image bits of its address replaced. -/
def withImage (addr k : Nat) : Nat := addr - addr % 0x10000 + k * 0x4000 + addr % 0x4000

/-- A write of a row that names its register: 32 bits, plain, on its lanes. -/
def State.writeReg (s : State) (win reg : Nat) (data : Word) (img : Nat := 0) (ecc : Bool := false) : State :=
  if win < 257 then
    s.portAccess { addr := win * 0x10000 + img * 0x4000 + reg, size := .b32, wr := true,
                   data := if reg % 8 = 4 then mk64 0 data else mk64 data 0, ecc := ecc }
  else s

/-- The number of an image. -/
def imageCode : Sys2Proof.Image → Nat
  | .plain => 0 | .set => 1 | .clr => 2 | .tgl => 3

/-- REGISTER_WRITE (R35). -/
def execRegisterWrite (addr : Nat) (size : Size) (data : W64) (s : State) : Out :=
  done s (s.portAccess { addr := withImage addr 0, size := size, wr := true, data := data })
/-- SET_WRITE (R21). -/
def execSetWrite (addr : Nat) (size : Size) (data : W64) (s : State) : Out :=
  done s (s.portAccess { addr := withImage addr 1, size := size, wr := true, data := data })
/-- CLR_WRITE (R21). -/
def execClrWrite (addr : Nat) (size : Size) (data : W64) (s : State) : Out :=
  done s (s.portAccess { addr := withImage addr 2, size := size, wr := true, data := data })
/-- TGL_WRITE (R21). -/
def execTglWrite (addr : Nat) (size : Size) (data : W64) (s : State) : Out :=
  done s (s.portAccess { addr := withImage addr 3, size := size, wr := true, data := data })
/-- LOW_WORD_READ (R24, R31): a read of any size at an address. -/
def execLowWordRead (read : PortRead) (s : State) : Out :=
  done s (s.portAccess { addr := read.addr, size := read.size, wr := false, data := 0 })
/-- LOW_WORD_WRITE (R32). -/
def execLowWordWrite (addr : Nat) (data : Word) (s : State) : Out :=
  done s (s.portAccess { addr := addr, size := .b32, wr := true, data := mk64 data data })
/-- HIGH_WORD_WRITE (R32). -/
def execHighWordWrite (addr : Nat) (data : Word) (s : State) : Out :=
  done s (s.portAccess { addr := addr, size := .b32, wr := true, data := mk64 data data })
/-- POSTED_WRITE (R34). -/
def execPostedWrite (addr : Nat) (size : Size) (data : W64) (s : State) : Out :=
  done s (s.portAccess { addr := addr, size := size, wr := true, data := data })
/-- POSTED_WRITE_APPLY (R34). -/
def execPostedWriteApply (win : Nat) (s : State) : Out := done s (s.postedApply win)
/-- TBL_SEL_WRITE (R37). -/
def execTblSelWrite (win : Nat) (data : Word) (s : State) : Out := done s (s.writeReg win 0x3800 data)
/-- TBL_DATA_WRITE (R37). -/
def execTblDataWrite (win w : Nat) (img : Sys2Proof.Image) (data : Word) (s : State) : Out :=
  done s (if w < 16 then s.writeReg win (0x3840 + 4 * w) data (imageCode img) else s)
/-- TABLE_READ (R37). -/
def execTableRead (win : Nat) (ecc : Bool) (s : State) : Out := done s (s.writeReg win 0x3804 1 0 ecc)
/-- TABLE_WRITE (R38). -/
def execTableWrite (win : Nat) (wmask : BitVec 16) (s : State) : Out :=
  done s (s.writeReg win 0x3804 (wd (2 + at_ wmask.toNat 16 16)))

/-- Whether the table that a window's command reaches has its clock stopped, so that the access waits (R272). -/
def State.tblStill (s : State) (win : Nat) : Bool := s.domStill 0 || s.domStill (tblDomain (fld (s.regW win 0x3800) 24 8))

/-- The effect of TABLE_ACCESS_DONE: busy falls and the held accesses run (R39). -/
def State.tableDone (s : State) (win : Nat) : State :=
  if (s.win win).busy ∧ s.tblStill win = false then
    (s.modWin win fun w => { w with busy := false }).runHeld .table win
  else s

/-- TABLE_ACCESS_DONE (R39). -/
def execTableAccessDone (win : Nat) (s : State) : Out := done s (s.tableDone win)
/-- INT_TICK_DIV_WRITE (R58). -/
def execIntTickDivWrite (win : Nat) (data : Word) (s : State) : Out := done s (s.writeReg win 0x0200 data)
/-- DP_CFG_WRITE (R55). -/
def execDpCfgWrite (win n : Nat) (b : Bool) (data : Word) (s : State) : Out :=
  done s (if n < 64 then s.writeReg win (0x0400 + 8 * n + (if b then 4 else 0)) data else s)
/-- A write of PHS_CFG (R135). -/
def execPhsCfgWrite (win n : Nat) (data : Word) (s : State) : Out :=
  done s (if n < 16 then s.writeReg win (0x1000 + 0x40 * n) data else s)

/-- CTX_CMD of window `win` with an op (R171). -/
def State.ctxRow (s : State) (win k op : Nat) : State :=
  if k < 4096 then s.writeReg win 0x1408 (wd (k + at_ op 12 3)) else s

/-- ARM (R171). -/
def execCtxArm (win k : Nat) (s : State) : Out := done s (s.ctxRow win k 1)
/-- DISARM (R171). -/
def execCtxDisarm (win k : Nat) (s : State) : Out := done s (s.ctxRow win k 2)
/-- SQUASH (R171). -/
def execCtxSquash (win k : Nat) (s : State) : Out := done s (s.ctxRow win k 3)
/-- A write of REC_FREEZE (R319). -/
def execRecFreezeWrite (win : Nat) (data : Word) (s : State) : Out := done s (s.writeReg win 0x3408 data)

end Sys2Proof.Machine
end

