-- ==== Sys2Proof/Machine/CommandRows.lean ====
section
/-! DEFINITION. The commands that are writes of a command register: each is the steward's, or its window's, plain write of that
register (R28, R29, R39), and the ends of the units that make such writes wait. -/

namespace Sys2Proof.Machine

/-! ## SNT_CMD (R305-R309) -/

/-- SAFE (R307). -/
def execSafe (s : State) : Out := done s (s.writeReg 0 0x3008 1)
/-- LEAVE_SAFE (R309). -/
def execLeaveSafe (s : State) : Out := done s (s.writeReg 0 0x3008 2)
/-- WARM (R305). -/
def execWarm (s : State) : Out := done s (s.writeReg 0 0x3008 3)
/-- PCREQ (R305). -/
def execPcreq (s : State) : Out := done s (s.writeReg 0 0x3008 4)
/-- REINIT (R306). -/
def execReinit (f : Nat) (s : State) : Out := done s (if f < 5409 then s.writeReg 0 0x3008 (wd (5 + at_ f 16 13)) else s)

/-! ## LDR_CMD (R254-R258, R260, R266, R267) -/

/-- RESTART (R255). -/
def execRestart (p : BitVec 2) (s : State) : Out := done s (s.writeReg 0 0x2400 (wd (1 + 16 * p.toNat)))
/-- RETUNE (R257). -/
def execRetune (p : BitVec 2) (s : State) : Out := done s (s.writeReg 0 0x2400 (wd (2 + 16 * p.toNat)))
/-- SAVE (R256). -/
def execSave (s : State) : Out := done s (s.writeReg 0 0x2400 3)
/-- NVM_READ (the table LDR_CMD). -/
def execNvmRead (s : State) : Out := done s (s.writeReg 0 0x2400 4)
/-- NVM_PROG (R260). -/
def execNvmProg (s : State) : Out := done s (s.writeReg 0 0x2400 5)
/-- NVM_ERASE (the table LDR_CMD). -/
def execNvmErase (s : State) : Out := done s (s.writeReg 0 0x2400 6)
/-- UNLOCK (R267). -/
def execUnlock (s : State) : Out := done s (s.writeReg 0 0x2400 7)
/-- LOCK of the protection records (R267). -/
def execProtectionLock (s : State) : Out := done s (s.writeReg 0 0x2400 8)
/-- OPEN (R254). -/
def execOpenBlock (s : State) : Out := done s (s.writeReg 0 0x2400 9)
/-- SWAP_CANCEL (R258). -/
def execSwapCancel (s : State) : Out := done s (s.writeReg 0 0x2400 10)

/-- A loader command's job ends with a status, and the accesses held behind it act (R39). -/
def State.ldrDone (s : State) (st : Nat) : State := (s.ldrEnd st).runHeld .loader 0

/-! ## TEN_MCMD (R233, R243) -/

/-- MAP_SRC (R233). -/
def execMapSrc (v : Nat) (s : State) : Out := done s (if v < 256 then s.writeReg 0 0x2004 (wd (1 + at_ v 8 8)) else s)
/-- UNMAP_SRC (R233). -/
def execUnmapSrc (v : Nat) (s : State) : Out := done s (if v < 256 then s.writeReg 0 0x2004 (wd (2 + at_ v 8 8)) else s)
/-- FLUSH (R243). -/
def execFlush (v : Nat) (s : State) : Out := done s (if v < 256 then s.writeReg 0 0x2004 (wd (3 + at_ v 8 8)) else s)

/-- The effect of FLUSH_DONE: the tenants whose visits have ended are flushed, a step of the Sentinel that flushed one ends; with the
last of them the status shows, and the accesses held behind the command act (R233, R243, R302). -/
def State.flushDone (s : State) : State :=
  let ended := s.flush.filter fun x => decide (s.vcnt x.1 ≤ x.2)
  if ended.isEmpty then s
  else
    let s := { s with flush := s.flush.filter fun x => decide (x.2 < s.vcnt x.1) }
    let s := forEach ended (fun x s => if (s.func (fnTenant x.1)).busy then s.endStep (fnTenant x.1) else s) s
    let s := s.payOwed
    if s.flush.isEmpty then { s with mapStat := 0 }.runHeld .map 0 else s

/-- FLUSH_DONE (R243). -/
def execFlushDone (s : State) : Out := done s s.flushDone

/-! ## REC_CMD and the cursors (R320, R323-R325, R328, R335) -/

/-- ARM (R323). -/
def execArmGs (s : State) : Out := done s (s.writeReg 0 0x340C 1)
/-- CLEAR (R324). -/
def execClearGs (s : State) : Out := done s (s.writeReg 0 0x340C 2)
/-- RESUME (R328). -/
def execResume (s : State) : Out := done s (s.writeReg 0 0x340C 3)
/-- REC_FLUSH (R325). -/
def execRecFlush (s : State) : Out := done s (s.writeReg 0 0x340C 4)
/-- CKPT (R335). -/
def execCkpt (s : State) : Out := done s (s.writeReg 0 0x340C 5)

/-- A cursor command of window `win` (R320, R337). -/
def State.cursorRow (s : State) (win op : Nat) (area : BitVec 2) : State := s.writeReg win 0x3484 (wd (op + 16 * area.toNat))

/-- OLDEST (R320). -/
def execOldestRec (win : Nat) (area : BitVec 2) (s : State) : Out := done s (s.cursorRow win 1 area)
/-- NEWEST (R320). -/
def execNewestRec (win : Nat) (area : BitVec 2) (s : State) : Out := done s (s.cursorRow win 2 area)
/-- READ (R320). -/
def execReadRec (win : Nat) (area : BitVec 2) (s : State) : Out := done s (s.cursorRow win 3 area)
/-- NEXT (R320). -/
def execNextRec (win : Nat) (area : BitVec 2) (s : State) : Out := done s (s.cursorRow win 4 area)

/-! ## PHS_CMD and MIR_CMD (R142, R289, R293) -/

/-- ZERO (R142). -/
def execZero (n : Nat) (s : State) : Out := done s (if n < 16 then s.writeReg 0 (0x101C + 0x40 * n) 1 else s)
/-- RELEASE (R142). -/
def execRelease (n : Nat) (s : State) : Out := done s (if n < 16 then s.writeReg 0 (0x101C + 0x40 * n) 2 else s)
/-- REJOIN (R293). -/
def execRejoin (s : State) : Out := done s (s.writeReg 0 0x2C10 1)
/-- LEAVE (R289). -/
def execLeave (s : State) : Out := done s (s.writeReg 0 0x2C10 2)

/-! ## Rows that write a lantern register (R34, R242, R269, R271, R330; log 87) -/

/-- A plain steward write of PWR_CMD. -/
def pwrAccess (w : Word) : PortAccess := { addr := 0x2800, size := .b32, wr := true, data := mk64 w 0 }

/-- MODE: the steward's write of PWR_CMD is posted, and starts the transition as it is applied (R34, R271). -/
def execMode (m : BitVec 3) (s : State) : Out := done s (s.portAccess (pwrAccess (wd (1 + 4 * m.toNat))))
/-- APPLY: posted likewise (R34, R271). -/
def execApplyTargets (s : State) : Out := done s (s.portAccess (pwrAccess 2))
/-- REC_CAL_WRITE: the 64-bit write of REC_CAL, posted, which loads the calendar as it is applied; only the steward may write it (R32, R34,
R242, R330). -/
def execRecCalWrite (win : Nat) (data : W64) (s : State) : Out :=
  done s (if win < 257 then s.portAccess { addr := win * 0x10000 + 0x3500, size := .b64, wr := true, data := data } else s)

end Sys2Proof.Machine
end

