-- ==== Sys2Proof/Machine/NvmJobs.lean ====
section
/-! DEFINITION. The NVM port at work: grants and transactions, what a finished step leads to, timeouts, the suspend and resume
of an erase (R215, R220, R246, R256, R257, R260-R264, R300, R320). -/

namespace Sys2Proof.Machine

/-! ## Jobs that end -/

/-- The bytes of NVM_READ enter the loader buffer (table 0x17). -/
def State.fillBuf (s : State) (bs : List Byte) : State :=
  let ws := wordsOf (bs ++ s.ldrBuf.drop bs.length)
  forEach ((List.range ws.length).zip ws) (fun x s => s.hwTw 0x17 (x.1 / 16) (x.1 % 16) x.2) s

/-- A swap-set section's words in a copy of the swap set (R248, R257). -/
def applySwap (c : Section) (m : SMap Word) : SMap Word :=
  if c.swap && [0x0A, 0x0D, 0x0F].contains c.table then
    let ws := maskWords c.wmask
    (List.range c.count).foldl (fun m j =>
      if tblHas c.table (c.first + j) then
        (entryWords ws c.data j).foldl (fun m x =>
          if inSwapSet c.table x.1 then
            let k := tKey c.table (c.first + j) x.1
            mSet tblReset m k (merge (mGet tblReset m k) x.2 (tblMask c.table x.1))
          else m) m
      else m) m
  else m

/-- A RETUNE's profile has been read: its swap-set sections enter the shadow copy and the swap waits, or it ends CRC (R257). -/
def State.retuneRead (s : State) (p : Nat) (bs : List Byte) : State :=
  match profOf bs with
  | some b =>
    if fieldAt b 4 1 = p then
      let sh := (sections b).foldl (fun m c => applySwap c m) s.shadowTbl
      { s with shadowTbl := sh }.modLdr (fun l =>
        { l with spend := true, spendAt := s.rank, swapCrossed := none, pendEpoch := wd (profEpoch b) }) |>.ldrDone lOk
    else (s.bump 0x2470).ldrDone lCrc
  | none => (s.bump 0x2470).ldrDone lCrc

/-- The words of a context in a profile's sections (R306, the table "Steps by function"). -/
def ctxWords (b : List Byte) (k : Nat) : List (Nat × Word) :=
  (sections b).flatMap fun c =>
    if c.table = 0x0A ∧ c.first ≤ k ∧ k < c.first + c.count then
      (entryWords (maskWords c.wmask) c.data (k - c.first)).filter fun x => decide (x.1 ≤ 6) else []

/-- The read of a context's re-initialisation has ended: its words take the profile's values, or their reset values when the
read fails its CRC (the table "Steps by function"). -/
def State.ctxRead (s : State) (k : Nat) (bs : List Byte) : State :=
  let s := s.resetCtx k
  match profOf bs with
  | some b => (s.storeWords 0x0A k (ctxWords b k)).endCtxStep k
  | none => s.endCtxStep k

/-- A job's last step has ended (R246). -/
def State.finishJob (s : State) (j : NvmJob) : State :=
  match j.use with
  | .nvmRead => (s.fillBuf j.got).ldrDone lOk
  | .nvmProg => s.ldrDone lOk
  | .nvmErase => s.ldrDone lOk
  | .save _ => s.ldrDone lOk
  | .retune p => s.retuneRead p j.got
  | .ctxStep k => s.ctxRead k j.got
  | .gsWrite r => s.gsWritten r
  | .gsFirst n => s.gsRestart n
  | .release p => s.modLdr fun l => { l with released := l.released ++ [p] }
  | .gsClear r => s.endClear r
  | .flush _ _ _ => s.eraseFlush.kickFlush
  | .flushErase => s.eraseFlush
  | .ckpt _ => s.endCkpt
  | .cursor _ _ _ => s
  | .requeued => s

/-- The image a SAVE has still to program: its header. -/
def headBytes (l : List NvmStep) : List Byte := l.flatMap fun x => match x with
  | .prog _ d => d
  | _ => []

/-- Whether a SAVE's read-back, complete now, has the crc of the image (R256). -/
def savedOk (j : NvmJob) (rest : List NvmStep) : Bool :=
  let h := headBytes rest
  decide (wordBytes (crc32 (h.take 0x3C ++ List.replicate 4 0#8 ++ j.got)) = h.drop 0x3C)

/-- Whether a SAVE's read-back ends with a step, and fails. -/
def saveFails (j : NvmJob) : Bool :=
  (match j.use with
    | .save _ => true
    | _ => false) &&
  (match j.steps with
    | .read _ _ :: .prog a d :: rest => !savedOk j (.prog a d :: rest)
    | _ => false)

/-- The first step of a job has ended, `j` being the job with what the step brought: the steps `extra` come first, then what is left; the
job ends, or asks again for its next step (R246). A cursor read waits for CURSOR_DONE. -/
def State.stepDone (s : State) (old j : NvmJob) (extra : List NvmStep) : State :=
  let rest := extra ++ j.steps.drop 1
  let put := fun (x : Option NvmJob) => s.modLdr fun l => { l with jobs := putJob old x l.jobs }
  if saveFails j then (put none).ldrDone lCrc
  else if rest.isEmpty then (match j.use with
    | .cursor _ _ _ => put (some { j with steps := [] })
    | _ => (put none).finishJob j)
  else put (some { j with steps := rest, at_ := s.unit 2 })

/-- A job ends without its remaining steps; what a failure of it left to write goes on as a job of its own. -/
def State.dropJob (s : State) (j : NvmJob) (extra : List NvmStep := []) : State :=
  let s := s.modLdr fun l => { l with jobs := putJob j none l.jobs }
  if extra.isEmpty then s else s.addJob { req := j.req, use := .requeued, steps := extra }

/-- The holder's transaction ends; a further request of the same requester is raised anew (R246). -/
def State.endTx (s : State) : State :=
  let r := (s.arb 49).holder.getD 4
  s.modLdr fun l => { l with transOn := false, progBusy := none,
                             jobs := l.jobs.map fun j => if j.req = r then { j with at_ := max j.at_ (s.unit 2) } else j }

/-- The holder's job, while its transaction runs. -/
def State.txJob (s : State) : Option NvmJob := s.nvmHolder.bind s.headJob

/-! ## NVM_TRANSACTION_END and NVM_BUSY_CLEAR (R246, R260, R261) -/

/-- The effect of NVM_TRANSACTION_END: a read transaction ends. -/
def State.readEnd (s : State) : State :=
  match s.txJob with
  | some j => match j.steps with
    | .read a n :: _ =>
      let s := s.endTx
      let j := { j with at_ := max j.at_ (s.unit 2) }
      s.stepDone j { j with got := j.got ++ s.nvmBytes a n } []
    | _ => s
  | none => s

/-- NVM_TRANSACTION_END (R246). -/
def execNvmTransactionEnd (s : State) : Out := done s s.readEnd

/-- Whether a job is the command NVM_PROG. -/
def NvmJob.byCmd (j : NvmJob) : Bool := match j.use with
  | .nvmProg => true
  | _ => false

/-- A program of a job has ended, and failed unless good: its data moves to a replacement (R261). -/
def State.progDone (s : State) (j : NvmJob) (a : Nat) (d : List Byte) (r : NvmRes) : State :=
  match r with
  | .good => (s.nvmPut a d).stepDone j j []
  | _ =>
    let x := s.badSect a (progReason r) d
    x.1.stepDone j j x.2

/-- An entry of the bad-sector table has been programmed; a failure is reported (R261, R262). -/
def State.entryDone (s : State) (j : NvmJob) (d : List Byte) (r : NvmRes) : State :=
  match r, s.badSlot with
  | .good, some e => (s.nvmPut e d).stepDone j j []
  | _, some e => (s.badTableFault e (progReason r)).stepDone j j []
  | _, none => s.nvmFault.stepDone j j []

/-- An erase of a job has ended: its sector is blank, or newly bad. A refused sector that is blank is released (R260, R261). -/
def State.eraseOver (s : State) (j : NvmJob) (p : Nat) (r : NvmRes) : State :=
  match r with
  | .good =>
    let s := s.nvmWipe p
    s.stepDone j j (match j.use with
      | .release q => [s.releaseStep q]
      | _ => [])
  | _ =>
    let x := s.badErase p
    match j.use with
    | .release _ => x.1.dropJob j x.2
    | _ => x.1.stepDone j j x.2

/-- The erase that runs has ended (R263). -/
def State.eraseDone (s : State) (e : Erase) (r : NvmRes) : State :=
  let j := s.erasingJob
  let s := s.modLdr fun l => { l with erase := none }
  match j with
  | some j => s.eraseOver j e.addr r
  | none => if r = .good then s.nvmWipe e.addr else s

/-- The effect of NVM_BUSY_CLEAR: the program under way, or the erase that runs, is no longer busy. -/
def State.busyClear (s : State) (r : NvmRes) : State :=
  let runs : Option Erase := s.ldr.erase.filter fun e => !e.susp
  match s.txJob with
  | some j =>
    let s' := s.endTx
    let k := { j with at_ := max j.at_ (s.unit 2) }
    match j.steps with
    | .prog a d :: _ => s'.progDone k a d r
    | .entry d :: _ => s'.entryDone k d r
    | _ => s
  | none => match runs with
    | some e => s.eraseDone e r
    | none => s

/-- NVM_BUSY_CLEAR (R246). -/
def execNvmBusyClear (r : NvmRes) (s : State) : Out := done s (s.busyClear r)

/-! ## NVM_TIMEOUT (R246, R261, R300) -/

/-- The NVM operation watchdog's report (R300). -/
def State.nvmBite (s : State) : State := s.bite 0x10 fnDevice

/-- Whether a loader command of the steward waits for a job. -/
def NvmJob.isCmd (j : NvmJob) : Bool := match j.use with
  | .nvmRead => true
  | .nvmProg => true
  | .nvmErase => true
  | .retune _ => true
  | _ => false

/-- A program fails TIMEOUT: its sector is newly bad; NVM_PROG ends TIMEOUT (R246, R261). -/
def State.progTimeout (s : State) (j : NvmJob) (a : Nat) (d : List Byte) : State :=
  let x := s.badSect a 3 d
  let s := x.1.nvmBite
  if j.byCmd then (s.dropJob j x.2).ldrDone lTimeout else s.stepDone j j x.2

/-- A program of the port, its transaction ended, fails TIMEOUT. -/
def State.txTimeout (s : State) (j : NvmJob) : State :=
  let s := s.endTx
  let j := { j with at_ := max j.at_ (s.unit 2) }
  match j.steps with
  | .prog a d :: _ => s.progTimeout j a d
  | .entry _ :: _ => ((s.record 0x05 0 3 [wd (s.sectOf (s.badSlot.getD 0)), wd badNone]).nvmBite).stepDone j j []
  | _ => s

/-- An erase, or its suspend, fails TIMEOUT: its sector is newly bad; NVM_ERASE ends TIMEOUT (R246, R261). -/
def State.eraseTimeout (s : State) (e : Erase) : State :=
  let j := s.erasingJob
  let x := (s.modLdr fun l => { l with erase := none }).badErase e.addr
  let s := x.1.nvmBite
  match j with
  | some j => match j.use with
    | .nvmErase => (s.dropJob j x.2).ldrDone lTimeout
    | .release _ => s.dropJob j x.2
    | _ => s.stepDone j j x.2
  | none => s

/-- A read transaction ends TIMEOUT: its command ends TIMEOUT. What NVM_READ then leaves in the loader buffer is not stated
(log 5); a SAVE, a RETUNE and a context step go on as after a failed CRC, a cursor finds nothing. -/
def State.readTimeout (s : State) (j : NvmJob) : State :=
  match j.use with
  | .nvmRead =>
    let r := State.freeWords (cdiv s.ldrLen 4) (s.dropJob j)
    (r.1.fillBuf ((bytesOf r.2).take s.ldrLen)).ldrDone lTimeout
  | .retune _ => (s.dropJob j).ldrDone lTimeout
  | .save _ => (s.dropJob j).ldrDone lTimeout
  | .ctxStep k => (s.dropJob j).ctxRead k []
  | .cursor _ _ _ => s.modLdr fun l => { l with jobs := putJob j (some { j with steps := [], got := [] }) l.jobs }
  | _ => s.dropJob j

/-- The NVM grant limit SNT_WD1.nvmg, in ENG_CLK cycles; 0 disables. -/
def State.nvmLimit (s : State) : Nat := fld (s.reg 0x3014) 16 8 * 2 ^ 20

/-- Whether the NVM grant has been held beyond its limit (R300). -/
def State.nvmHeldLong (s : State) : Bool :=
  decide (s.nvmLimit ≠ 0) && s.ldr.transOn && decide (64 * (s.arb 49).since + s.nvmLimit ≤ s.eng2)

/-- A grant of the NVM port held beyond its limit: NVM_CS_N is raised, and the transaction ends TIMEOUT (R300). -/
def State.grantTimeout (s : State) : State :=
  if s.nvmHeldLong then (match s.txJob with
    | some j => match j.steps with
      | .read _ _ :: _ => s.endTx.nvmBite.readTimeout { j with at_ := max j.at_ (s.unit 2) }
      | _ => s.txTimeout j
    | none => s)
  else s

/-- The header in use, bootstrap settings before one is accepted (R245). -/
def State.header (s : State) : Header := s.ldr.hdr.getD {}

/-- Whether a program has been busy beyond tprog_max, in 10 us at nominal clocks (R246). -/
def State.progLate (s : State) : Bool := decide (s.ldr.transAt + 16000 * s.header.tprog ≤ s.eng2)

/-- The effect of NVM_TIMEOUT: a program, an erase, a suspend or a grant beyond its limit (R246, R300). -/
def State.nvmTimeout (s : State) : State :=
  match s.txJob with
  | some j => match j.steps with
    | .read _ _ :: _ => s.grantTimeout
    | _ => if s.progLate then s.txTimeout j else s.grantTimeout
  | none => match s.ldr.erase with
    | some e =>
      let late := match e.suspAt with
        | some t => e.susp && decide (t + 1600 * s.header.tsusp ≤ s.eng2)
        | none => !e.susp && decide (e.runFrom + 1600000 * s.header.terase ≤ s.eng2)
      if late then s.eraseTimeout e else s
    | none => s

/-- NVM_TIMEOUT (R246). -/
def execNvmTimeout (s : State) : Out := done s s.nvmTimeout

/-- GRANT_WATCHDOG_BITE (R220, R300): on the NVM port the NVM operation watchdog serves instead. -/
def execGrantWatchdogBite (i : ArbInst) (s : State) : Out :=
  done s (match i with
    | .nvm => s.grantTimeout
    | .outbound => s.grantBite 0
    | .sram b => if b < 48 then s.grantBite (b + 1) else s)

/-! ## GRANT_DECISION (R215, R246) -/

/-- A program that the blank check refuses, before its transaction: NVM_PROG ends NONBLANK; for any other the data goes to a spare, where there is one, and
the refused sector is then queued for an erase and its release (R260). -/
def State.refuseProg (s : State) (j : NvmJob) (a : Nat) (d : List Byte) : State :=
  let s := s.bump 0x2460
  if j.byCmd then ((s.record 0x05 0 5 [wd (s.sectOf a), wd badNone]).dropJob j).ldrDone lNonblank
  else
    let p := s.nvmPhys (s.sectOf a)
    let x := s.remapSect a 5 d false
    let s := x.1.stepDone j j x.2
    if x.2.isEmpty then s else s.addJob { req := 0, use := .release p, steps := [.erase p] }

/-- A grant of the NVM port begins the holder's transaction; an erase is issued in it and then runs by itself (R246, R260). -/
def State.beginTrans (s : State) : State :=
  match (s.arb 49).holder.bind s.headJob with
  | some j =>
    let s := s.modLdr fun l => { l with erase := l.erase.map fun e => { e with suspAt := none } }
    let on := fun (place : Option (Nat × Nat)) => s.modLdr fun l => { l with transOn := true, transAt := s.eng2, progBusy := place }
    match j.steps with
    | .erase a :: _ => if s.isNor then s.startErase a else s.stepDone j j []
    | .prog a d :: _ => if s.blankFails a d then s.refuseProg j a d else on (some (s.nvmPhys a, d.length))
    | .entry d :: _ => on (s.badSlot.map fun e => (e, d.length))
    | _ => on none
  | none => s

/-- A decision of the NVM instance, one a unit: the grant it makes begins a transaction (R215, R246). -/
def State.nvmDecide (s : State) : State :=
  let t := s.unit 2
  if t < (s.arb 49).next then s
  else
    let s := s.decideAt 49 t [] false
    let a := s.arb 49
    if s.ldr.transOn = false ∧ a.since = t + 1 ∧ a.holder.isSome then s.beginTrans else s

/-- GRANT_DECISION (R215). -/
def execGrantDecision (i : ArbInst) (wants : BankWants) (s : State) : Out :=
  done s (match i with
    | .outbound => if s.domStill 0 = false then s.decideAt 0 s.eng2 [] false else s
    | .sram b => if b < 48 ∧ s.domStill 0 = false then s.decideAt (b + 1) s.eng2 (wants.reqs.filter (· < 8)) wants.lane else s
    | .nvm => if s.domStill 0 = false ∧ s.domStill 4 = false then s.nvmDecide else s)

/-! ## ERASE_SUSPEND and ERASE_RESUME (R263, R264) -/

/-- Whether some requester's next step could be served were the erase suspended: a read of another sector. -/
def State.readWaits (s : State) : Bool :=
  let s := s.modLdr fun l => { l with erase := l.erase.map fun e => { e with susp := true } }
  (List.range 4).any fun r => match s.headJob r with
    | some j => s.nvmServable j
    | none => false

/-- The effect of ERASE_SUSPEND: 2 ms of run, and a read that waits (R263). -/
def State.suspend (s : State) : State :=
  match s.ldr.erase with
  | some e =>
    if e.susp = false ∧ e.runFrom + 3200000 ≤ s.eng2 ∧ s.readWaits then
      (s.bump 0x2464).modLdr fun l => { l with erase := some { e with susp := true, suspAt := some s.eng2 } }
    else s
  | none => s

/-- ERASE_SUSPEND (R263). -/
def execEraseSuspend (s : State) : Out := done s s.suspend

/-- The effect of ERASE_RESUME: no servable read is left (R263). -/
def State.resumeErase (s : State) : State :=
  match s.ldr.erase with
  | some e =>
    if e.susp ∧ s.ldr.transOn = false ∧ s.readWaits = false then
      s.modLdr fun l => { l with erase := some { e with susp := false, suspAt := none, runFrom := s.eng2 } }
    else s
  | none => s

/-- ERASE_RESUME (R263). -/
def execEraseResume (s : State) : Out := done s s.resumeErase

/-! ## CURSOR_DONE (R320) -/

/-- The effect of CURSOR_DONE: the Groundsheet read of a window's cursor has ended; busy falls and held accesses run (R39,
R320). -/
def State.cursorDone (s : State) (win : Nat) : State :=
  match s.ldr.jobs.find? fun j => j.cursorDone win with
  | some j => match j.use with
    | .cursor _ op _ =>
      let s := s.modLdr fun l => { l with jobs := l.jobs.filter fun x => !x.cursorDone win }
      let s := s.cursorEnd win op (gsRecs j.got)
      s.runHeld .cursor win
    | _ => s
  | none => s

/-- CURSOR_DONE (R320). -/
def execCursorDone (win : Nat) (s : State) : Out := done s (s.cursorDone win)

end Sys2Proof.Machine
end

