-- ==== Sys2Proof/Machine/Start.lean ====
section
/-! DEFINITION. The start sequence: header, bad-sector table, candidates, the application of a profile, and the Open edge or
Failed (R245-R255, R262, R265, R346). -/

namespace Sys2Proof.Machine

/-! ## The bad-sector table (R262) -/

/-- The bad-sector table's working copy: replacements, sectors returned to the spares, bad sectors with no replacement (log 27). -/
structure BadMap where
  remap : SMap Nat := []
  released : List Nat := []
  bad : List Nat := []
  deriving DecidableEq, Repr

/-- One entry: the latest for a sector decides (R262). -/
def BadMap.add (m : BadMap) (sect repl reason : Nat) : BadMap :=
  if reason = 6 then { m with released := m.released ++ [sect], bad := m.bad.filter (· ≠ sect) }
  else if repl = badNone then { m with remap := mErase m.remap sect, bad := m.bad ++ [sect], released := m.released.filter (· ≠ sect) }
  else { remap := mPut m.remap sect repl, bad := m.bad.filter (· ≠ sect), released := m.released.filter fun x => decide (x ≠ repl ∧ x ≠ sect) }

/-- The bad-sector table's entries, oldest first. `n` bounds their number. -/
def badTable : Nat → List Byte → BadMap → BadMap
  | 0, _, acc => acc
  | n + 1, b, acc =>
    let e := b.take 16
    if e.length < 16 ∨ e.all (· == 0xFF#8) then acc
    else if wordBytes (crc32 (e.take 12)) ≠ e.drop 12 then badTable n (b.drop 16) acc
    else badTable n (b.drop 16) (acc.add (fieldAt e 0 4) (fieldAt e 4 4) (fieldAt e 8 1))

/-- The table is read into the loader's working area, up to 1,024 entries (R262). -/
def State.readBad (s : State) : State :=
  let s := s.modLdr fun l => { l with remap := [], released := [], bad := [] }
  match s.region 8 with
  | some (b, n) =>
    let t := badTable 1024 (s.nvmBytes b (min n 16384)) {}
    s.modLdr fun l => { l with remap := t.remap, released := t.released, bad := t.bad }
  | none => s

/-! ## Sections (R248, R346) -/

/-- A section or a pair is skipped (R248, R346). -/
def State.skipLoad (s : State) : State := s.bump 0x2470

/-- The lowest-numbered tenant whose slice holds a slot of the source map (R346). -/
def State.sliceOwner (s : State) (n : Nat) : Option Nat :=
  (List.range 256).find? fun v =>
    let base := fld (s.ten v 2) 0 15
    decide (base ≤ n) && decide (n < base + s.vcnt v)

/-- One slot of a source-map section: a MAP_SRC, whose status shows, counted when it is refused (R233, R346). -/
def State.loadSlot (s : State) (n : Nat) (w : Word) : State :=
  if bit w 15 = false then s
  else match s.sliceOwner n with
  | some v =>
    let virt := n - fld (s.ten v 2) 0 15
    let phys := fld w 0 15
    let st := s.mapStatus v virt phys
    let s := { s with mapStat := st }
    if st = 0 then (s.setTw 0x15 (n / 16) (n % 16) (wd (phys + 0x8000))).setTw 0x01 phys 4 (wd (at_ virt 0 15 + at_ v 16 8))
    else s.skipLoad
  | none => s.skipLoad

/-- A pair of a page-register image: a plain steward write, skipped when it draws an error (R248). -/
def State.loadPair (s : State) (off : Nat) (v : Word) : State :=
  let a : PortAccess := { addr := off, size := .b32, wr := true, data := if off % 8 = 4 then mk64 0 v else mk64 v 0 }
  if 0x10000 ≤ off ∨ (s.portErr a).isSome then s.skipLoad else s.writeWords a a.parts

/-- The pairs of a page-register image, in order. -/
def State.loadPairs (s : State) : List Word → State
  | o :: v :: t => (s.loadPair o.toNat v).loadPairs t
  | _ => s

/-- Whether a table takes entry WRITEs from a profile (R346). -/
def loadable (t : Nat) : Bool := decide (1 ≤ t) && decide (t ≤ 0x16) && decide (t ≠ 0x06) && decide (t ≠ 0x15)

/-- A section is applied (R248, R346). -/
def State.applySection (s : State) (c : Section) : State :=
  let ws := maskWords c.wmask
  if loadable c.table then
    forEach (List.range c.count) (fun j s =>
      if tblHas c.table (c.first + j) then s.commit c.table (c.first + j) (entryWords ws c.data j) else s) s
  else if c.table = 0x15 then
    forEach (List.range c.count) (fun j s =>
      forEach (entryWords ws c.data j) (fun x s => s.loadSlot (16 * (c.first + j) + x.1) x.2) s) s
  else if c.table = 0xF0 then s.loadPairs c.data
  else s.skipLoad

/-! ## Candidates (R249, R252, R253) -/

/-- The bytes of the header of a profile slot (0-3) or last-settings half (4, 5). -/
def State.profHead (s : State) (i : Nat) : List Byte :=
  match (if i < 4 then s.region i else s.halfAt (i - 4)) with
  | some (a, _) => s.nvmBytes a 64
  | none => []

/-- The slot or half the retention record names. -/
def RetRec.source (r : RetRec) : Option Nat := match r.path with
  | 1 => some 4
  | 2 => some 5
  | 3 => some r.cand
  | _ => none

/-- Whether the source the record names still holds its epoch (R252). -/
def State.epochHeld (s : State) (r : RetRec) : Bool := match r.source with
  | some i =>
    let h := s.profHead i
    decide (h.take 4 = [0x52#8, 0x4E#8, 0x48#8, 0x50#8]) && decide (fieldAt h 12 4 = r.epoch.toNat)
  | none => false

/-- Whether the retained state is valid (R252). -/
def State.retainedOk (s : State) : Bool :=
  let r := s.ldr.ret
  r.valid && r.memkept && decide (r.sel = s.ldr.sel) && decide ((s.ldr.hdr.map Header.hseq) = some r.hseq) && s.epochHeld r && r.same

/-- A candidate of R249 behind the retained state: its slot or half, path and place as the fallback. -/
structure Cand where
  src : Nat
  path : Nat
  fback : Bool
  deriving DecidableEq, Repr

/-- The candidates 2 to 4 that a start tries (R249). -/
def State.cands (s : State) : List Cand :=
  let h := s.header
  let sel := s.ldr.sel
  (if h.uselast ∧ s.ldr.ret.override = false then [{ src := s.newerHalf.getD 4, path := 1, fback := false : Cand }] else [])
  ++ [{ src := sel, path := 2, fback := false : Cand }]
  ++ (if h.fbp0 ∧ sel ≠ 0 then [{ src := 0, path := 2, fback := true : Cand }] else [])

/-- The tables and the shadow copy return to their reset values (R250). -/
def State.resetTables (s : State) : State := { s with tbl := mKeep keptTbl s.tbl, shadowTbl := [] }

/-- A candidate's profile is applied, and the block opens on it (R248, R250). -/
def State.openOn (s : State) (c : Cand) (p : List Byte) (tries : Nat) : State :=
  let s := s.modLdr fun l => { l with phase := .load, epoch := wd (profEpoch p) }
  let s := forEach (sections p) (fun x s => s.applySection x) s
  s.openEdge { path := c.path, cand := c.src, prof := fieldAt p 4 1 % 4, fback := c.fback, tries := tries }

/-- No candidate is valid: the start fails (R254). -/
def State.startFails (s : State) (tries : Nat) : State :=
  (s.modLdr fun l => { l with phase := .failed, startW := wd (at_ tries 25 3) }).startRecord

/-- Whether a slot or half that is present holds no profile with a correct magic, length and crc (R249). -/
def State.brokenAt (s : State) (i : Nat) : Bool := match (if i < 4 then s.region i else s.halfAt (i - 4)) with
  | some (a, n) => (profOf (s.nvmBytes a (min n 0x200000))).isNone
  | none => false

/-- The candidates in order, `tries` of them rejected before (R249, R253). One that fails its CRC, magic or length is counted; a slot that
holds another slot's profile is not. -/
def State.tryCands (s : State) (tries : Nat) : List Cand → State
  | [] => s.startFails tries
  | c :: rest =>
    match s.profAt c.src with
    | some p =>
      if c.path = 1 ∧ fieldAt p 4 1 ≠ s.ldr.sel then s.tryCands (tries + 1) rest else s.openOn c p tries
    | none =>
      (onlyIf (s.brokenAt c.src) (·.bump 0x2470) s).tryCands (tries + 1) rest

/-- The start opens on the retained state: the page registers take their values from the image (R252). -/
def State.openRetained (s : State) : State :=
  let r := s.ldr.ret
  let prof := fieldAt (s.profHead (r.source.getD 0)) 4 1 % 4
  let s := (s.restorePage fun _ => true).modLdr fun l => { l with epoch := r.epoch }
  s.openEdge { path := 0, cand := r.cand, prof := prof, fback := false, tries := 0 }

/-- What a start does before it tries a candidate: an operation that keeps the memory busy is aborted, the sector the record names is
requeued, the header and the bad-sector table are read, and function state and share levels take their reset values, but for the
device's ladder, which the start's own reset keeps (R247, R249, R262, R265, R305, R346). -/
def State.prepare (s : State) : State :=
  let s := s.abortNvm
  let r := s.ldr.ret
  let s := s.modLdr fun l => { l with requeue := if r.valid && r.erasing then [r.esect] else [] }
  let s := (s.modLdr fun l => { l with hdr := none }).modLdr fun l => { l with hdr := s.findHeader, phase := .check }
  { s with usage := [], tbl := s.tbl.filter (fun x => decide (x.1 / 0x80000 ≠ 0x18)),
           snt := { s.snt with funcs := mKeep (· == fnDevice) s.snt.funcs } }.readBad

/-- The start sequence, from the header to Open or Failed. -/
def State.runStart (s : State) : State :=
  let s := s.prepare
  if s.ldr.hdr.isSome ∧ s.retainedOk then s.openRetained
  else
    let r := s.ldr.ret
    let stale := s.ldr.kept
    let s := onlyIf (s.ldr.hdr.isSome && (!r.valid || (r.memkept && !r.same))) (·.bump 0x2470) s
    let s := if stale then s.resetTables else s
    let s := s.modLdr fun l => { l with kept := false, ret := { l.ret with same := false } }
    let s := s.modLog fun l => { l with fly := [], side := [] }
    if s.ldr.hdr.isNone then s.startFails 0 else s.tryCands 1 s.cands

/-- Whether domains are being returned to On. -/
def State.raisingNow (s : State) : Bool := match s.pwr.trans with
  | some t => t.ph == .raising
  | none => false

/-- Whether a start waits to run: the header phase, with the loader's, the core's and the memory's domains On, and every
domain that returns returned (R249, R276). -/
def State.startDue (s : State) : Bool :=
  s.ldr.phase == .header && !s.domStill 0 && !s.domStill 2 && !s.domStill 4 && !s.raisingNow

/-- START_SEQUENCE (R249). -/
def execStartSequence (s : State) : Out := done s (if s.startDue then s.runStart else s)

end Sys2Proof.Machine
end

