-- ==== Sys2Proof/Machine/Mirror.lean ====
section
/-! DEFINITION. The mirror pair at work: the link, pairing, the journal and the snapshot both ways, heartbeats, loss and
takeover (15). -/

namespace Sys2Proof.Machine

/-! ## The link (R281) -/

/-- A house source 0x5A14, while MIR_CFG.praise = 1 (R299). -/
def State.linkHouse (s : State) : State := onlyIf (bit (s.reg 0x2C00) 7) (·.house 0x5A14) s

/-- The link goes up or down (R281). -/
def State.setLink (s : State) (up : Bool) : State :=
  if s.domStill 3 = false ∧ s.mir.link ≠ up then (s.modMir fun m => { m with link := up }).linkHouse else s

/-- LINK_UP (R281). -/
def execLinkUp (s : State) : Out := done s (s.setLink true)
/-- LINK_DOWN (R281). -/
def execLinkDown (s : State) : Out := done s (s.setLink false)

/-- Whether a frame can be received and sent. -/
def State.linked (s : State) : Bool := s.mir.link && !s.domStill 3

/-- A received frame whose CRC or format is wrong is discarded (R282). -/
def State.badFrame (s : State) : State := s.bump 0x2C24

/-! ## Frames on the link (R282, R285) -/

/-- The 16 bytes of a journal entry (the table "Journal entry, 16 bytes"). -/
def JEntry.bytes : JEntry → List Byte
  | .inst p st held dest seq payload =>
    leBytes 2 1 ++ leBytes 2 seq ++ leBytes 4 (at_ p 0 15 + at_ st 15 3 + at_ held 18 4 + at_ dest 22 10) ++ leBytes 8 payload.toNat
  | .ctx k stat tgt => leBytes 2 2 ++ leBytes 2 k ++ leBytes 4 stat ++ leBytes 8 tgt.toNat
  | .base n stat ofs turns => leBytes 2 3 ++ leBytes 2 n ++ leBytes 4 stat ++ leBytes 4 ofs.toNat ++ leBytes 4 turns.toNat
  | .lock n held occ burst engine =>
    leBytes 2 4 ++ leBytes 2 n ++ leBytes 4 (b2n held + at_ (b2n occ) 1 1 + at_ (b2n burst) 2 1 + at_ engine 3 9) ++ leBytes 8 0
  | .cnt t w i delta => leBytes 2 5 ++ leBytes 2 (at_ t 0 8 + at_ w 8 4) ++ leBytes 4 i ++ leBytes 4 delta.toNat ++ leBytes 4 0
  | .cfg t w i value => leBytes 2 6 ++ leBytes 2 (at_ t 0 8 + at_ w 8 4) ++ leBytes 4 i ++ leBytes 4 value.toNat ++ leBytes 4 0

/-- A frame as it leaves on the link: header, body, and a trailer that holds the CRC-32 of both, here in its first four bytes (the tables
"Frame header" and "Control bodies"; log 141). -/
def TxFrame.wire (f : TxFrame) : List Byte :=
  let head := leBytes 1 f.kind ++ leBytes 1 f.flags ++ leBytes 2 f.entries.length ++ leBytes 4 f.fseq.toNat
  let body := if f.kind = 1 ∨ f.kind = 2 then f.entries.flatMap JEntry.bytes else (f.body ++ List.replicate (4 - f.body.length) 0).flatMap wordBytes
  head ++ body ++ wordBytes (crc32 (head ++ body)) ++ List.replicate 4 0#8

/-! ## Frames sent (R282, R289) -/

/-- The words of a HEARTBEAT or HELLO body that are not 0. -/
def State.beat (s : State) (nak : Bool) : TxFrame :=
  { kind := 3, flags := b2n s.mir.behind, body := [wd (s.mir.role.code + at_ (b2n nak) 8 1), s.mir.rxseq, 0] }

/-- A HELLO (the table "Control bodies"). -/
def State.helloFrame (s : State) : TxFrame :=
  { kind := 4, flags := b2n s.mir.behind,
    body := [wd (s.mir.role.code + at_ (b2n s.mir.strap) 8 1 + at_ (b2n s.mir.served) 9 1 + at_ (b2n s.mir.fence) 10 1), 0, s.ldr.epoch] }

/-- MIR_TIME.hbp, in RANK_CLK cycles. -/
def State.hbp (s : State) : Nat := 64 * orOne (fld (s.reg 0x2C04) 0 8)

/-- The effect of HEARTBEAT_PERIOD: a paired block sends a HEARTBEAT every hbp, a Solo one a HELLO every 1 us while the link is
up (R283, R289). -/
def State.beatPeriod (s : State) : State :=
  if s.linked = false then s
  else if s.paired then
    if s.mir.lastTx + s.hbp ≤ s.rank then (s.sendFrame (s.beat false)).modMir fun m => { m with lastTx := s.rank } else s
  else if s.mir.role = .solo then
    if s.mir.helloAt + 3200 ≤ s.rank then (s.sendFrame s.helloFrame).modMir fun m => { m with helloAt := s.rank } else s
  else s

/-- HEARTBEAT_PERIOD (R289). -/
def execHeartbeatPeriod (s : State) : Out := done s s.beatPeriod

/-! ## Pairing (R283, R284, R293) -/

/-- The block becomes Primary: its partner resyncs from a snapshot (R293). -/
def State.becomePrimary (s : State) : State :=
  s.modMir fun m =>
    { m with role := .primary, journal := [], behind := false, lapsed := false, fseq := 1, ackseq := 0, snapOn := true,
             snapLeft := 4593, lastRx := s.rank, lastTx := s.rank }

/-- What a block that becomes a Standby drops: its own dynamic state, but for its intake and its bases (R284). -/
def State.clearServing (s : State) : State :=
  let busy := (s.engs.filter fun x => x.2.st.busy).map Prod.fst
  let s := forEach busy (fun e s => s.setEng e { st := s.restEng e, idleAt := s.eng2 }) s
  { s with srcs := [], dsts := s.dsts.filterMap (fun x => if x.2.upPin then some (x.1, x.2.fresh) else none),
           banks := [], usage := [], ctxs := [], occs := [], pools := [], clusters := [], locks := [], seqs := [] }

/-- The block becomes its partner's Standby, in Resync (R284, R293). -/
def State.becomeStandby (s : State) : State :=
  s.clearServing.modMir fun m =>
    { m with role := .resync, rxseq := 0, gapped := false, snapGot := false, psrc := [], pctx := [], plock := [], lastRx := s.rank,
             lastTx := s.rank, served := false }

/-- A HELLO pairs a Solo block by the first rule that applies (R283). -/
def State.pairWith (s : State) (h : HelloBody) : State :=
  let m := s.mir
  if h.epoch ≠ s.ldr.epoch then s.mirEvent 5 false
  else if m.served ∧ h.served = false then s.becomePrimary
  else if m.served = false ∧ h.served then s.becomeStandby
  else if m.served then
    (if m.fence = h.fence then s.mirEvent 4 false else if m.fence then s.becomePrimary else s.becomeStandby)
  else if m.strap = h.pairRole then s.mirEvent 4 false
  else if m.strap then s.becomePrimary else s.becomeStandby

/-- The effect of HELLO. One that comes to a Standby, or to a block in Resync, tells that its partner is Solo again: it drops what it
had, goes to Resync and answers with a HELLO, so that its partner pairs anew (R287, R293; DEDUCED, log 139). -/
def State.recvHello (s : State) (h : HelloBody) : State :=
  if s.mir.role = .solo then s.pairWith h
  else if (s.mir.role = .standby ∨ s.mir.role = .resync) ∧ h.epoch = s.ldr.epoch ∧ h.served then
    let s := s.becomeStandby
    s.sendFrame s.helloFrame
  else s

/-- What a frame that arrives does: nothing while the link is down or Guyline idle; one whose CRC or format is wrong is discarded and
counted, whatever the role (R282, R283). -/
def State.receive (s : State) (good : Bool) (f : State → State) : State :=
  if s.linked = false ∨ s.mir.role = .off then s else if good then f s else s.badFrame

/-- HELLO (R283). -/
def execHello (h : HelloBody) (s : State) : Out := done s (s.receive h.good (·.recvHello h))

/-! ## What a journal entry tells (R285, R293) -/

/-- A word a CFG entry carries: a table word, or a page register written as a plain steward write; of the calendar's two words the low one
waits for the high one (R32, R248, R285). -/
def State.applyCfg (s : State) (table word entry : Nat) (v : Word) : State :=
  if table = 0xF0 then
    match regAt entry with
    | some row =>
      if row.win then s
      else match row.kind with
      | .lowWord => if row.lan then s.modMir fun m => { m with calLow := some v } else s
      | .highWord => if row.lan then (s.modMir fun m => { m with calLow := none }).loadCal (mk64 (s.mir.calLow.getD 0) v) else s
      | .cfg => if row.lan then s.applyPosted { off := entry, img := .plain, data := v, mask := 0xFFFFFFFF }
                else s.setCfg 0 entry (imageOf .plain (s.reg entry) v 0xFFFFFFFF row.rw)
      | .cnt => if row.lan then s.setReg entry v else s.setCfg 0 entry v
      | _ => s
    | none => s
  else if tblHas table entry ∧ word < 16 then s.commit table entry [(word, v)] else s

/-- A count advances by what the entry carries, or takes its absolute value in a snapshot (R285, R293). -/
def State.applyCnt (s : State) (abs : Bool) (table word entry : Nat) (v : W64) : State :=
  if tblHas table entry = false ∨ 16 ≤ word then s
  else if abs then s.setTw table entry word (lo32 v)
  else if (table = 0x19 ∨ table = 0x1A) ∧ word % 2 = 0 then
    let n := s.tw64 table entry word + v
    (s.setTw table entry word (lo32 n)).setTw table entry (word + 1) (hi32 n)
  else s.setTw table entry word (s.tw table entry word + lo32 v)

/-- A base's offset and turn count come from the journal (R284). -/
def State.applyBase (s : State) (n : Nat) (ofs turns : Word) : State :=
  (s.setReg (0x103C + 0x40 * n) ofs).modBase n fun b =>
    { b with ap := mk64 (lo32 b.ap) turns,
             ai := BitVec.ofNat 80 (b.ai.toNat % 2 ^ 48 + turns.toNat * 2 ^ 48) }

/-- An entry is applied (R285). -/
def State.applyEntry (s : State) (abs : Bool) (e : JEntry) : State :=
  match e with
  | .inst p st held dest seq payload =>
    if p < psnEnd then s.modMir fun m => { m with psrc := mSet (fun _ => (0, 0, 0, 0, 0)) m.psrc p (st, held, dest, seq % 65536, payload) } else s
  | .ctx k st tgt =>
    if k < 4096 then (s.setCtgt k tgt).modMir fun m => { m with pctx := mSet (fun _ => (0, 0)) m.pctx k (st, tgt) } else s
  | .base n _ ofs turns => if n < 16 then s.applyBase n ofs turns else s
  | .lock n h o b eng =>
    if n < 64 then s.modMir fun m => { m with plock := mSet (fun _ => (false, false, false, 0)) m.plock n (h, o, b, eng) } else s
  | .cnt t w i v => s.applyCnt abs t w i v
  | .cfg t w i v => s.applyCfg t w i v

/-- Whether a frame ends the resync: the snapshot's last brings it to an end only where the live journal held meanwhile has been applied,
which a JOURNAL frame that is not full tells (R293; DEDUCED, log 140). -/
def State.resyncEnd (s : State) (f : Frame) (snap : Bool) : State :=
  if s.mir.role ≠ .resync then s
  else if snap then onlyIf f.last (·.modMir fun m => { m with snapGot := true }) s
  else if s.mir.snapGot ∧ f.entries.length < 16 then s.modMir fun m => { m with role := .standby, snapGot := false }
  else s

/-- A JOURNAL or SNAPSHOT frame with a correct CRC: applied when it is the next, else discarded with one nak (R286). -/
def State.recvFrame (s : State) (f : Frame) (snap : Bool) : State :=
  if f.fseq = s.mir.rxseq + 1 then
    let s := s.modMir fun m => { m with rxseq := f.fseq, gapped := false }
    (forEach f.entries (fun e s => s.applyEntry snap e) s).resyncEnd f snap
  else if s.mir.gapped then s
  else (s.sendFrame (s.beat true)).modMir fun m => { m with gapped := true }

/-- Whether a frame's CRC is right and it has the 1 to 16 entries its format gives it (R282). -/
def frameGood (f : Frame) : Bool := f.good && decide (1 ≤ f.entries.length ∧ f.entries.length ≤ 16)

/-- JOURNAL (R286). -/
def execJournal (f : Frame) (s : State) : Out :=
  done s (s.receive (frameGood f) fun s => if s.mir.role = .standby ∨ s.mir.role = .resync then s.recvFrame f false else s)

/-- SNAPSHOT (R293): only a block in Resync takes one. -/
def execSnapshot (f : Frame) (s : State) : Out :=
  done s (s.receive (frameGood f) fun s => if s.mir.role = .resync then s.recvFrame f true else s)

/-! ## Acknowledgement (R286, R287, R293) -/

/-- Whether a frame number is acknowledged by `ack`, modulo 2^32. -/
def acked (ack f : BitVec 32) : Bool := decide ((ack - f).toNat < 2 ^ 31)

/-- Entries whose frame is acknowledged leave the journal; lapsed and the snapshot may end (R286, R287, R293). -/
def Mir.ack (m : Mir) (a : BitVec 32) : Mir :=
  let j := m.journal.filter fun x => match x.fseq with
    | some f => !acked a f
    | none => true
  let snapDone := m.snapOn && decide (m.snapLeft = 0) && acked a m.snapSeq && !(j.any fun x => decide (x.at_ ≤ m.snapAt))
  { m with journal := j, ackseq := if acked a m.ackseq then a else m.ackseq,
           lapsed := m.lapsed && (m.behind || j.any JItem.late),
           snapOn := m.snapOn && !snapDone, fence := m.fence && !snapDone, fack := m.fack && !snapDone }

/-- Entry `n` of a snapshot, in the order of R293. -/
def State.snapEntry (s : State) (n : Nat) : JEntry :=
  if n < 23104 then s.jInst n
  else if n < 27200 then s.jCtx (n - 23104)
  else if n < 27216 then s.jBase (n - 27200)
  else if n < 27280 then s.jLock (n - 27216)
  else .cnt 0x19 ((n - 27280) % 2) ((n - 27280) / 2) ((s.tw 0x19 ((n - 27280) / 2) ((n - 27280) % 2)).setWidth 64)

/-- A frame that was sent before, as it is sent again: the journal's entries of that frame, or the snapshot's (R286, R293). -/
def State.frameAgain (s : State) (f : BitVec 32) : TxFrame :=
  let l := s.mir.journal.filter fun x => decide (x.fseq = some f)
  let i := 4593 - s.mir.snapLeft - 1 - (s.mir.snapSeq - f).toNat
  { kind := if l.isEmpty then 2 else 1, flags := b2n s.mir.behind + 2, fseq := f,
    entries := if l.isEmpty then (List.range 16).map fun k => s.snapEntry (16 * i + k) else l.map JItem.e }

/-- A nak: every frame from ackseq + 1 on is sent again, in order, and counted (R286). -/
def State.resend (s : State) : State :=
  let n := (s.mir.fseq - 1 - s.mir.ackseq).toNat
  if n = 0 then s
  else ((s.bumpN 0x2C28 n).bumpN 0x2C20 n).modMir fun m => { m with tx := some (s.frameAgain (s.mir.fseq - 1)) }

/-- The effect of HEARTBEAT: the loss count restarts; a Primary takes the acknowledgement; a block in Resync with the whole snapshot, to which
no held journal came, is a Standby (R286, R289, R293; log 140). -/
def State.recvBeat (s : State) (b : BeatBody) : State :=
  if s.paired = false then s
  else
    let s := s.modMir fun m => { m with lastRx := s.rank }
    match s.mir.role with
    | .primary =>
      let s := s.modMir fun m => m.ack b.ackseq
      onlyIf b.nak (·.resend) s
    | .resync => onlyIf s.mir.snapGot (·.modMir fun m => { m with role := .standby, snapGot := false }) s
    | _ => s

/-- HEARTBEAT (R289). -/
def execHeartbeat (b : BeatBody) (s : State) : Out := done s (s.receive b.good (·.recvBeat b))

/-! ## The journal sent (R285-R287, R293) -/

/-- The first entries not yet sent, at most `n`, take a frame number. -/
def sendItems (f : BitVec 32) : Nat → List JItem → List JItem
  | 0, l => l
  | _, [] => []
  | n + 1, x :: t => if x.fseq.isSome then x :: sendItems f (n + 1) t else { x with fseq := some f } :: sendItems f n t

/-- Whether an entry not yet sent is older than slag (R287). -/
def State.lagging (s : State) : Bool :=
  s.mir.journal.any fun x => x.fseq.isNone && decide (x.at_ + 64 * orOne (fld (s.reg 0x2C04) 20 8) < s.rank)

/-- behind falls once no entry is late to be sent (R287). -/
def State.settleBehind (s : State) : State :=
  if s.mir.behind && !s.lagging then
    s.modMir fun m => { m with behind := false, lapsed := m.lapsed && m.journal.any JItem.late } else s

/-- A SNAPSHOT frame leaves (R293). -/
def State.sendSnap (s : State) : State :=
  let m := s.mir
  let i := 4593 - m.snapLeft
  let f := s.sendFrame { kind := 2, flags := b2n m.behind, fseq := m.fseq, entries := (List.range 16).map fun k => s.snapEntry (16 * i + k) }
  f.modMir fun x => { x with fseq := x.fseq + 1, snapLeft := x.snapLeft - 1, snapSeq := m.fseq, snapAt := s.rank }

/-- A JOURNAL frame leaves with the oldest entries not yet sent, 16 at most (R285). -/
def State.sendJournal (s : State) : State :=
  let m := s.mir
  let l := (m.journal.filter fun x => x.fseq.isNone).take 16
  if l.isEmpty then s
  else
    let f := s.sendFrame { kind := 1, flags := b2n m.behind, fseq := m.fseq, entries := l.map JItem.e }
    (f.modMir fun x => { x with fseq := x.fseq + 1, journal := sendItems m.fseq 16 x.journal }).settleBehind

/-- The effect of JOURNAL_SEND: the live journal is held from the snapshot's first frame to its last (R285, R293). -/
def State.journalSend (s : State) : State :=
  if s.mir.role = .primary ∧ s.linked then (if s.mir.snapOn ∧ 0 < s.mir.snapLeft then s.sendSnap else s.sendJournal) else s

/-- JOURNAL_SEND (R285). -/
def execJournalSend (s : State) : Out := done s s.journalSend

/-- The effect of SEND_LAG_EXPIRY: behind rises (R287). -/
def State.sendLag (s : State) : State :=
  if s.mir.role = .primary ∧ s.mir.behind = false ∧ s.lagging then
    (s.bump 0x2C2C).modMir fun m => { m with behind := true, lapsed := true }
  else s

/-- SEND_LAG_EXPIRY (R287). -/
def execSendLagExpiry (s : State) : Out := done s s.sendLag

/-! ## Loss and takeover (R289-R292) -/

/-- LEAVE from the partner ends the pairing (R289). -/
def execLeaveFrame (good : Bool) (s : State) : Out :=
  done s (s.receive good fun s => if s.paired then s.lose 3 else s)

/-- Whether MIR_TIME.miss periods have passed without a HEARTBEAT (R289). -/
def State.partnerMissed (s : State) : Bool :=
  s.paired && decide (s.mir.lastRx + s.hbp * orOne (fld (s.reg 0x2C04) 8 3) ≤ s.rank)

/-- PARTNER_LOSS (R289, R300). -/
def execPartnerLoss (s : State) : Out := done s (if s.partnerMissed then s.mirBite.lose 1 else s)

/-- The effect of FENCE_ACK: a takeover that waits for it goes on (R291). -/
def State.fenceAck (s : State) : State :=
  if s.mir.fence = false ∨ s.mir.fack then s
  else
    let s := s.modMir fun m => { m with fack := true }
    if s.mir.role = .takeover ∧ s.mir.fto = false then s.fenced else s

/-- FENCE_ACK (R291). -/
def execFenceAck (s : State) : Out := done s s.fenceAck

/-- Whether FENCE_ACK has failed to come within ftmo (R291). -/
def State.fenceLate (s : State) : Bool :=
  s.mir.role == .takeover && !s.mir.fto && !s.mir.fack && decide (s.mir.fenceAt + 64 * orOne (fld (s.reg 0x2C04) 12 8) ≤ s.rank)

/-- FENCE_TIMEOUT (R291). -/
def execFenceTimeout (s : State) : Out := done s (if s.fenceLate then s.fenceFails else s)

/-- The instances of a replayed source: the oldest with its payload; the journal tells no other's (log 5). No pool entry: a
replayed message sends no completion message (R292). -/
def State.replayQueue : Nat → Word → State → State × List Inst
  | 0, _, s => (s, [])
  | n + 1, w, s =>
    let r := State.replayQueue n s.freeVal s.freeNext
    (r.1, { payload := w } :: r.2)

/-- A source the journal shows with an instance is made Pending again; one it shows Idle takes the journaled seq (R292). A source raised at
this block since the loss stands. -/
def State.repend (s : State) (p : Nat) (x : Nat × Nat × Nat × Nat × Word) : State :=
  let (st, held, _, seq, payload) := x
  let q := BitVec.ofNat 16 seq
  if st = 0 ∨ (s.src p).q.isEmpty = false then
    onlyIf (s.isC0 p) (·.modIn p fun y => { y with seq0 := q }) (s.modSrc p fun y => { y with seq := q })
  else
    let s := s.bump 0x2C3C
    if isCtx p then s.modCtx (p - psnCtx) fun c => { c with replaySeq := some q }
    else
      let r := State.replayQueue (max 1 held) payload s
      let s := r.1.modSrc p fun y => { y with q := r.2, seq := q, replay := true, st := .pending, since := s.rank }
      if s.isC0 p then
        let a := s.reg (0x0400 + 8 * p)
        (s.modIn p fun y => { y with seq0 := q }).modSrc p fun y =>
          { y with place := .direct, dst := fld a 16 9, key := { cls := 0, prio := fld a 8 8, share := 0, stamp := 0, psn := p } }
      else s.enter p

/-- Every enabled context is armed from its journaled CTX_TGT (R148, R291). -/
def State.armJournaled (s : State) : State :=
  forEach (List.range 4096) (fun k s =>
    if bit (s.ccfg k) 0 then s.arm k (if s.isTime (s.cbase k) then s.ctgt k else (lo32 (s.ctgt k)).setWidth 64) else s) s

/-- The re-pend of a takeover visits 8 sources in a RANK_CLK cycle, ascending; `takeAt` is the next it visits (R291, R292). -/
def State.takeVisits (s : State) : State :=
  match s.mir.takeAt with
  | some p =>
    if s.mir.role = .takeover ∧ p < psnEnd then
      (forEach ((s.mir.psrc.filter fun x => decide (p ≤ x.1 ∧ x.1 < p + 8))) (fun x s => s.repend x.1 x.2) s).modMir
        fun m => { m with takeAt := some (p + 8) }
    else s
  | none => s

/-- The effect of TAKEOVER_OPEN: once every source was visited, the enabled contexts are armed and the block opens as Solo, and an
active level raises (R43, R291, R292). -/
def State.takeoverOpen (s : State) : State :=
  match s.mir.takeAt with
  | some p =>
    if s.mir.role = .takeover ∧ psnEnd ≤ p then
      let s := s.modMir fun m => { m with role := .solo, takeAt := none, psrc := [], pctx := [], helloAt := s.rank }
      let s := forEach (mKeys s.ins) (fun n s => s.levelTry n) s.armJournaled
      (s.bump 0x2C38).mirEvent 7 true
    else s
  | none => s

/-- TAKEOVER_OPEN (R291). -/
def execTakeoverOpen (s : State) : Out := done s s.takeoverOpen

end Sys2Proof.Machine
end

