-- ==== Sys2Proof/Machine/Tick.lean ====
section
/-! DEFINITION. The resets as commands, and the RANK_CLK edge that a step with no waiting command is (R7, R351; log 1). -/

namespace Sys2Proof.Machine

/-! ## Resets (R351, R352) -/

/-- LANTERN_POWER_ON_RESET (R351). -/
def execLanternPowerOnReset (s : State) : Out := done s s.powerOn

/-- BLK_RST_N (R351, R352). -/
def execBlkRstN (profsel : BitVec 2) (pairRole : Bool) (s : State) : Out := done s (s.blockReset profsel.toNat pairRole)

/-! ## The edge (log 1) -/

/-- The destinations whose scheduled RETRACT falls due (R111, R116). -/
def State.dueRetracts (s : State) (pool : Bool) : List Nat :=
  (s.dsts.filter fun x => decide (512 ≤ x.1) == pool && (match x.2.retractAt with
    | some t => decide (t ≤ s.rank)
    | none => false)).map Prod.fst

/-- What the present edge still owes as it is left: the visits of a FLUSH and of a takeover, the ends of completion work, the RAISEs judged
at it and the instructions that wait for them, the bases' work, signals, sweeps, arms and releases, the REINIT commands, the takes'
reads, the message stages, the final comparisons, the pipeline's work and the selections, a pool's claim timer and its offer that no engine took, and last
the exchange of a swap (R91, R94, R111, R116, R118, R143, R150, R161,
R186, R205, R259). -/
def State.leaveEdge (s : State) : State :=
  let s := onlyIf (!s.domStill 0) (·.flushVisits.takeVisits.dueLeaves) s
  let s := s.endRaises.dueFaults.endSchedule.dueReinits.endMembership.endTakes
  let s := onlyIf (!s.domStill 0) (·.dueLeaves.msgWork) s
  let s := onlyIf (!s.domStill 0) (·.finalCompare.pipeWork.stage10All.selections) s
  let s := s.poolExpiries
  (forEach (s.dueRetracts true) (fun d s => s.retract d) s).endSwap

/-- A pool whose confirmed offer waits for an idle member counts the ENG_CLK cycle (the table RFX_N_PWAIT). -/
def State.poolWaits (s : State) : State :=
  forEach ((s.dsts.filter fun x => decide (512 ≤ x.1) && x.2.offer.isSome).map Prod.fst) (fun d s =>
    let p := d - 512
    if (s.takeable p).isSome && (s.taker p).isNone then s.bumpTw 0x0C p 3 else s) s

/-- What comes with the next edge: entries move on one stage, faults on their way are taken, accepted completions end their
instances, locks of ended sequences are freed, scheduled RETRACTs show, a flush that was asked for begins (R91, R111, R131, R221,
R325). -/
def State.reachEdge (s : State) : State :=
  let s := onlyIf (!s.domStill 0) (·.pipeStep) s
  let s := s.freeEnded.dueEnds
  let s := onlyIf (decide (s.rank % 2 = 0)) (·.dueFaults.dueRecovs.dueSteps.poolWaits.countCwait) s
  let s := forEach (s.dueRetracts false) (fun d s => s.retract d) s
  s.kickFlush

/-- A block that serves with an instance in hand has served work (R283; log 72). -/
def State.noteServed (s : State) : State :=
  if s.serving && !s.mir.served && s.srcs.any (fun x => x.2.st != .idle) then s.modMir fun m => { m with served := true } else s

/-- The present edge as it is left, with the journal's entries of what it still owed. -/
def State.edgeLeft (s : State) : State := journaled s s.leaveEdge.noteServed

/-- One RANK_CLK edge later (log 1). -/
def State.edgeReached (s : State) : State :=
  { s with rank := s.rank + 1, fab := s.fab + 1, edge := { s.edge.next (s.rank + 1) with loads := s.loadsNow } }

/-- One RANK_CLK edge (log 1). -/
def State.tickEdge (s : State) : State := s.edgeLeft.edgeReached.reachEdge

/-- A step with no waiting command: what the edge still owed and what the next brings are journaled at their own edges (R285). -/
def idle (s : State) : Out := (done s.edgeLeft.edgeReached s.tickEdge)

end Sys2Proof.Machine
end

