-- ==== Sys2Proof/Machine/Dispatch.lean ====
section
/-! DEFINITION. The dispatch: one arm per command, each one direct call of its meaning. -/

namespace Sys2Proof.Machine

def exec (i : Instr) (s : State) : Host.Outcome State Fault Refusal :=
  match i with
  | .registerWrite addr size data => Sys2Proof.Machine.execRegisterWrite addr size data s
  | .setWrite addr size data => Sys2Proof.Machine.execSetWrite addr size data s
  | .clrWrite addr size data => Sys2Proof.Machine.execClrWrite addr size data s
  | .tglWrite addr size data => Sys2Proof.Machine.execTglWrite addr size data s
  | .lowWordRead read => Sys2Proof.Machine.execLowWordRead read s
  | .lowWordWrite addr data => Sys2Proof.Machine.execLowWordWrite addr data s
  | .highWordWrite addr data => Sys2Proof.Machine.execHighWordWrite addr data s
  | .postedWrite addr size data => Sys2Proof.Machine.execPostedWrite addr size data s
  | .postedWriteApply win => Sys2Proof.Machine.execPostedWriteApply win s
  | .tblSelWrite win data => Sys2Proof.Machine.execTblSelWrite win data s
  | .tblDataWrite win w img data => Sys2Proof.Machine.execTblDataWrite win w img data s
  | .tableRead win ecc => Sys2Proof.Machine.execTableRead win ecc s
  | .tableWrite win wmask => Sys2Proof.Machine.execTableWrite win wmask s
  | .tableAccessDone win => Sys2Proof.Machine.execTableAccessDone win s
  | .intTickDivWrite win data => Sys2Proof.Machine.execIntTickDivWrite win data s
  | .dpCfgWrite win n b data => Sys2Proof.Machine.execDpCfgWrite win n b data s
  | .wiredInputChange n pin samples => Sys2Proof.Machine.execWiredInputChange n pin samples s
  | .meiExpiry n => Sys2Proof.Machine.execMeiExpiry n s
  | .intakeTick => Sys2Proof.Machine.execIntakeTick s
  | .stormRefill n => Sys2Proof.Machine.execStormRefill n s
  | .wireWakeLatch n pin => Sys2Proof.Machine.execWireWakeLatch n pin s
  | .directPathNotify t => Sys2Proof.Machine.execDirectPathNotify t s
  | .doorbell port addr data srcid => Sys2Proof.Machine.execDoorbell port addr data srcid s
  | .doorbellNp port addr data srcid => Sys2Proof.Machine.execDoorbellNp port addr data srcid s
  | .completionMessageTransfer port ready => Sys2Proof.Machine.execCompletionMessageTransfer port ready s
  | .entryInsertion bank => Sys2Proof.Machine.execEntryInsertion bank s
  | .usageDecay => Sys2Proof.Machine.execUsageDecay s
  | .sweeperVisit bank d => Sys2Proof.Machine.execSweeperVisit bank d s
  | .speculativeOffer d => Sys2Proof.Machine.execSpeculativeOffer d s
  | .confirmWindowEnd d ecc => Sys2Proof.Machine.execConfirmWindowEnd d ecc s
  | .claim t => Sys2Proof.Machine.execClaim t s
  | .complete t cseq => Sys2Proof.Machine.execComplete t cseq s
  | .claimTimerExpiry d => Sys2Proof.Machine.execClaimTimerExpiry d s
  | .targetDown t => Sys2Proof.Machine.execTargetDown t s
  | .targetUp t => Sys2Proof.Machine.execTargetUp t s
  | .completionWorkDone psn => Sys2Proof.Machine.execCompletionWorkDone psn s
  | .engineTake p => Sys2Proof.Machine.execEngineTake p s
  | .firstInstruction e chk => Sys2Proof.Machine.execFirstInstruction e chk s
  | .completionAccept c => Sys2Proof.Machine.execCompletionAccept c s
  | .budget e => Sys2Proof.Machine.execBudget e s
  | .selfTest e => Sys2Proof.Machine.execSelfTest e s
  | .selfTestEnd e pass => Sys2Proof.Machine.execSelfTestEnd e pass s
  | .selfTestInterval => Sys2Proof.Machine.execSelfTestInterval s
  | .nop e chk => Sys2Proof.Machine.execNop e chk s
  | .add e d a b chk => Sys2Proof.Machine.execAdd e d a b chk s
  | .sub e d a b chk => Sys2Proof.Machine.execSub e d a b chk s
  | .adds e d a b chk => Sys2Proof.Machine.execAdds e d a b chk s
  | .subs e d a b chk => Sys2Proof.Machine.execSubs e d a b chk s
  | .and e d a b chk => Sys2Proof.Machine.execAnd e d a b chk s
  | .or e d a b chk => Sys2Proof.Machine.execOr e d a b chk s
  | .xor e d a b chk => Sys2Proof.Machine.execXor e d a b chk s
  | .shl e d a b chk => Sys2Proof.Machine.execShl e d a b chk s
  | .shr e d a b chk => Sys2Proof.Machine.execShr e d a b chk s
  | .sra e d a b chk => Sys2Proof.Machine.execSra e d a b chk s
  | .min e d a b chk => Sys2Proof.Machine.execMin e d a b chk s
  | .max e d a b chk => Sys2Proof.Machine.execMax e d a b chk s
  | .abs e d a chk => Sys2Proof.Machine.execAbs e d a chk s
  | .clmp e d a b chk => Sys2Proof.Machine.execClmp e d a b chk s
  | .addi e d a imm chk => Sys2Proof.Machine.execAddi e d a imm chk s
  | .addis e d a imm chk => Sys2Proof.Machine.execAddis e d a imm chk s
  | .andi e d a imm chk => Sys2Proof.Machine.execAndi e d a imm chk s
  | .ori e d a imm chk => Sys2Proof.Machine.execOri e d a imm chk s
  | .ldi e d imm chk => Sys2Proof.Machine.execLdi e d imm chk s
  | .lui e d imm chk => Sys2Proof.Machine.execLui e d imm chk s
  | .shli e d a k chk => Sys2Proof.Machine.execShli e d a k chk s
  | .shri e d a k chk => Sys2Proof.Machine.execShri e d a k chk s
  | .srai e d a k chk => Sys2Proof.Machine.execSrai e d a k chk s
  | .mul e d a b sh rnd chk => Sys2Proof.Machine.execMul e d a b sh rnd chk s
  | .mac e a b chk => Sys2Proof.Machine.execMac e a b chk s
  | .msu e a b chk => Sys2Proof.Machine.execMsu e a b chk s
  | .accld e a sh chk => Sys2Proof.Machine.execAccld e a sh chk s
  | .accadd e a sh chk => Sys2Proof.Machine.execAccadd e a sh chk s
  | .accrd e d sh rnd n16 chk => Sys2Proof.Machine.execAccrd e d sh rnd n16 chk s
  | .lds e d off chk => Sys2Proof.Machine.execLds e d off chk s
  | .ldsx e d a off chk => Sys2Proof.Machine.execLdsx e d a off chk s
  | .sts e r off chk => Sys2Proof.Machine.execSts e r off chk s
  | .stsx e r a off chk => Sys2Proof.Machine.execStsx e r a off chk s
  | .out e r a off chk => Sys2Proof.Machine.execOut e r a off chk s
  | .outh e r a off chk => Sys2Proof.Machine.execOuth e r a off chk s
  | .br e cond a b off chk => Sys2Proof.Machine.execBr e cond a b off chk s
  | .loop e body bound chk => Sys2Proof.Machine.execLoop e body bound chk s
  | .loopr e a body bound chk => Sys2Proof.Machine.execLoopr e a body bound chk s
  | .lock e n chk => Sys2Proof.Machine.execLock e n chk s
  | .rel e chk => Sys2Proof.Machine.execRel e chk s
  | .raise e d a chk => Sys2Proof.Machine.execRaise e d a chk s
  | .rds e d sel chk => Sys2Proof.Machine.execRds e d sel chk s
  | .endR e chk => Sys2Proof.Machine.execEndR e chk s
  | .outboundTransfer ready ecc => Sys2Proof.Machine.execOutboundTransfer ready ecc s
  | .grantDecision a wants => Sys2Proof.Machine.execGrantDecision a wants s
  | .windowBoundary a => Sys2Proof.Machine.execWindowBoundary a s
  | .burstStallTear => Sys2Proof.Machine.execBurstStallTear s
  | .grantWatchdogBite a => Sys2Proof.Machine.execGrantWatchdogBite a s
  | .lockHoldBite n => Sys2Proof.Machine.execLockHoldBite n s
  | .mapSrc tenant => Sys2Proof.Machine.execMapSrc tenant s
  | .unmapSrc tenant => Sys2Proof.Machine.execUnmapSrc tenant s
  | .flush tenant => Sys2Proof.Machine.execFlush tenant s
  | .flushDone => Sys2Proof.Machine.execFlushDone s
  | .feedSample n ang spd iang flg => Sys2Proof.Machine.execFeedSample n ang spd iang flg s
  | .missingIndex n => Sys2Proof.Machine.execMissingIndex n s
  | .feedLoss n => Sys2Proof.Machine.execFeedLoss n s
  | .zero n => Sys2Proof.Machine.execZero n s
  | .release n => Sys2Proof.Machine.execRelease n s
  | .phsCfgWrite win n data => Sys2Proof.Machine.execPhsCfgWrite win n data s
  | .launch n => Sys2Proof.Machine.execLaunch n s
  | .releaseOrdered n => Sys2Proof.Machine.execReleaseOrdered n s
  | .rebuildEnd n => Sys2Proof.Machine.execRebuildEnd n s
  | .holdLimitExpiry o => Sys2Proof.Machine.execHoldLimitExpiry o s
  | .ctxArm win k => Sys2Proof.Machine.execCtxArm win k s
  | .ctxDisarm win k => Sys2Proof.Machine.execCtxDisarm win k s
  | .ctxSquash win k => Sys2Proof.Machine.execCtxSquash win k s
  | .restart prof => Sys2Proof.Machine.execRestart prof s
  | .retune prof => Sys2Proof.Machine.execRetune prof s
  | .swap => Sys2Proof.Machine.execSwap s
  | .swapTimeout => Sys2Proof.Machine.execSwapTimeout s
  | .swapCancel => Sys2Proof.Machine.execSwapCancel s
  | .save => Sys2Proof.Machine.execSave s
  | .nvmRead => Sys2Proof.Machine.execNvmRead s
  | .nvmProg => Sys2Proof.Machine.execNvmProg s
  | .nvmErase => Sys2Proof.Machine.execNvmErase s
  | .unlock => Sys2Proof.Machine.execUnlock s
  | .protectionLock => Sys2Proof.Machine.execProtectionLock s
  | .openBlock => Sys2Proof.Machine.execOpenBlock s
  | .startSequence => Sys2Proof.Machine.execStartSequence s
  | .nvmBusyClear r => Sys2Proof.Machine.execNvmBusyClear r s
  | .nvmTimeout => Sys2Proof.Machine.execNvmTimeout s
  | .eraseSuspend => Sys2Proof.Machine.execEraseSuspend s
  | .eraseResume => Sys2Proof.Machine.execEraseResume s
  | .mode m => Sys2Proof.Machine.execMode m s
  | .applyTargets => Sys2Proof.Machine.execApplyTargets s
  | .powerManagerRequest m => Sys2Proof.Machine.execPowerManagerRequest m s
  | .powerManagerRelease => Sys2Proof.Machine.execPowerManagerRelease s
  | .domainAnswer => Sys2Proof.Machine.execDomainAnswer s
  | .strikeAnswerTimeout => Sys2Proof.Machine.execStrikeAnswerTimeout s
  | .repitch => Sys2Proof.Machine.execRepitch s
  | .powerAck d => Sys2Proof.Machine.execPowerAck d s
  | .domainReturn d => Sys2Proof.Machine.execDomainReturn d s
  | .i2cWake addr => Sys2Proof.Machine.execI2cWake addr s
  | .wakeIn level => Sys2Proof.Machine.execWakeIn level s
  | .linkUp => Sys2Proof.Machine.execLinkUp s
  | .linkDown => Sys2Proof.Machine.execLinkDown s
  | .journal f => Sys2Proof.Machine.execJournal f s
  | .snapshot f => Sys2Proof.Machine.execSnapshot f s
  | .heartbeat b => Sys2Proof.Machine.execHeartbeat b s
  | .hello h => Sys2Proof.Machine.execHello h s
  | .leaveFrame good => Sys2Proof.Machine.execLeaveFrame good s
  | .heartbeatPeriod => Sys2Proof.Machine.execHeartbeatPeriod s
  | .sendLagExpiry => Sys2Proof.Machine.execSendLagExpiry s
  | .partnerLoss => Sys2Proof.Machine.execPartnerLoss s
  | .fenceAck => Sys2Proof.Machine.execFenceAck s
  | .fenceTimeout => Sys2Proof.Machine.execFenceTimeout s
  | .takeoverOpen => Sys2Proof.Machine.execTakeoverOpen s
  | .rejoin => Sys2Proof.Machine.execRejoin s
  | .leave => Sys2Proof.Machine.execLeave s
  | .safe => Sys2Proof.Machine.execSafe s
  | .leaveSafe => Sys2Proof.Machine.execLeaveSafe s
  | .warm => Sys2Proof.Machine.execWarm s
  | .pcreq => Sys2Proof.Machine.execPcreq s
  | .reinit f => Sys2Proof.Machine.execReinit f s
  | .escalationTimerExpiry f => Sys2Proof.Machine.execEscalationTimerExpiry f s
  | .targetReinitEnd t => Sys2Proof.Machine.execTargetReinitEnd t s
  | .clockFault c => Sys2Proof.Machine.execClockFault c s
  | .scrub found => Sys2Proof.Machine.execScrub found s
  | .crcRecheck bad => Sys2Proof.Machine.execCrcRecheck bad s
  | .recordAssembly back => Sys2Proof.Machine.execRecordAssembly back s
  | .sideBufferDrain => Sys2Proof.Machine.execSideBufferDrain s
  | .recFreezeWrite win data => Sys2Proof.Machine.execRecFreezeWrite win data s
  | .groundsheetWrite => Sys2Proof.Machine.execGroundsheetWrite s
  | .armGs => Sys2Proof.Machine.execArmGs s
  | .clearGs => Sys2Proof.Machine.execClearGs s
  | .resume => Sys2Proof.Machine.execResume s
  | .recFlush => Sys2Proof.Machine.execRecFlush s
  | .ckpt => Sys2Proof.Machine.execCkpt s
  | .oldestRec win area => Sys2Proof.Machine.execOldestRec win area s
  | .newestRec win area => Sys2Proof.Machine.execNewestRec win area s
  | .readRec win area => Sys2Proof.Machine.execReadRec win area s
  | .nextRec win area => Sys2Proof.Machine.execNextRec win area s
  | .cursorDone win => Sys2Proof.Machine.execCursorDone win s
  | .pfail => Sys2Proof.Machine.execPfail s
  | .lastGaspWrite => Sys2Proof.Machine.execLastGaspWrite s
  | .calendarSecond => Sys2Proof.Machine.execCalendarSecond s
  | .recCalWrite win data => Sys2Proof.Machine.execRecCalWrite win data s
  | .lanternPowerOnReset => Sys2Proof.Machine.execLanternPowerOnReset s
  | .blkRstN profsel pairRole => Sys2Proof.Machine.execBlkRstN profsel pairRole s
  | .nvmTransactionEnd => Sys2Proof.Machine.execNvmTransactionEnd s
  | .journalSend => Sys2Proof.Machine.execJournalSend s
  | .slowCopyRefresh => Sys2Proof.Machine.execSlowCopyRefresh s
  | .deviceStepEnd found => Sys2Proof.Machine.execDeviceStepEnd found s

end Sys2Proof.Machine
end

