-- ==== Sys2Proof/Safety.lean ====
section
/-! DEFINITION. What claims about the block are stated in: what a command gives, what stands beside its effect, and when an
engine issues an instruction. -/

namespace Sys2Proof.Machine

/-- The maps of sources, engines and usage levels are in canonical form, so that equal maps are equal data. -/
def State.Canonical (s : State) : Prop :=
  mWf (fun _ => {}) s.srcs = true ∧ mWf (fun _ => {}) s.engs = true ∧ mWf (fun _ => 0) s.usage = true

/-- `u` is `t` but for what comes beside a command's own effect: the journal of the mirror with its overflow, the record of
that, and the two counters MIR_N_DESYNC and REC_N_FOLD with the edge's note of their counting (R8); a block that is not
Primary adds nothing (R285, R287, R317). -/
def Beside (t u : State) : Prop :=
  u = { t with mir := u.mir, regs := u.regs, log := u.log, edge := u.edge } ∧
  (∀ k, k ≠ 0x2C30 → k ≠ 0x3420 → u.reg k = t.reg k) ∧
  (t.mir.role ≠ .primary → u = t)

/-- Command `c` completes in state `s`, and its next state is `t` with what the journal adds; the queue of waiting commands
stays. -/
def Gives (c : Instr) (s t : State) : Prop :=
  ∃ u, exec c s = .next u ∧ Beside { t with pending := s.pending } u

/-- The steward's plain write of a command register of domain `d` acts at this edge, its unit being free: the port takes accesses, the
domain answers them, and the block is no standby, which would count the write (R28, R29, R284, R348). -/
def PortActs (s : State) (d : Nat) : Prop := s.regReady = true ∧ s.domStill d = false ∧ s.mir.role ≠ .standby

/-- `t` with the answer to an access of the register port that state `s` takes: the access has the next tag, and its response is
presented under it (R348; the tags' values are the model's choice, log 124). -/
def State.answers (s t : State) (r : Resp := {}) : State :=
  { t with regTag := s.regTag + 1, resp := { r with id := s.regTag }, answered := s.answered ++ [{ r with id := s.regTag }] }

/-- Engine `e` comes to instruction `i` at this edge: it runs and is free, no RAISE of its own falls due, its index is inside the
reflex, the word there is `i`'s, and its budget is not spent, or is spent at this very edge and the word is END's (R181, R191, R192,
R205, R209). -/
def Fetches (s : State) (e : Nat) (i : Instr) : Prop :=
  s.issuing e = true ∧ s.raiseDue e = false ∧
  (s.cycles e < (s.eng e).budget ∨ s.cycles e = (s.eng e).budget ∧ s.fetched e = endWord) ∧
  (s.eng e).entry ≤ (s.eng e).pc ∧
  (s.eng e).pc < (s.eng e).entry + (s.eng e).len ∧
  readWord e (s.fetched e) = some i ∧
  insnWord i = some (s.fetched e) ∧
  s.snt.warmDue = false

/-- Engine `e` issues instruction `i` in state `s`: it comes to it, in a legal place, and a slot word the instruction names is in range
(R192, R201). -/
def Issues (s : State) (e : Nat) (i : Instr) : Prop :=
  Fetches s e i ∧ s.misplaced e i = false ∧ s.slotOut e i = false

/-- The rows of engine `e`'s instructions with these operands. -/
def reflexRows (e : Nat) (d a b k : BitVec 5) (imm : BitVec 16) (o : BitVec 8) (off : BitVec 11) (rnd : BitVec 2) (n16 : Bool)
    (body bound : BitVec 8) (n : BitVec 6) (chk : Chk) : List Instr :=
  [.nop e chk, .add e d a b chk, .sub e d a b chk, .adds e d a b chk, .subs e d a b chk, .and e d a b chk, .or e d a b chk,
    .xor e d a b chk, .shl e d a b chk, .shr e d a b chk, .sra e d a b chk, .min e d a b chk, .max e d a b chk, .abs e d a chk,
    .clmp e d a b chk, .addi e d a imm chk, .addis e d a imm chk, .andi e d a imm chk, .ori e d a imm chk, .ldi e d imm chk,
    .lui e d imm chk, .shli e d a k chk, .shri e d a k chk, .srai e d a k chk, .mul e d a b k rnd chk, .mac e a b chk,
    .msu e a b chk, .accld e a k chk, .accadd e a k chk, .accrd e d k rnd n16 chk, .lds e d o chk, .ldsx e d a o chk,
    .sts e d o chk, .stsx e d a o chk, .out e d a imm chk, .outh e d a imm chk, .br e d a b off chk, .loop e body bound chk,
    .loopr e a body bound chk, .lock e n chk, .rel e chk, .raise e d a chk, .rds e d k chk, .endR e chk]

/-- Engine `e`'s reflex is outside the cases that a fault has more to say of: it runs an ordinary instance, not stalled, and the
engine's ladder rests. -/
def Plain (s : State) (e : Nat) : Prop :=
  e < 512 ∧ (s.eng e).occ = none ∧ (s.eng e).stall = .none ∧
  (s.func e).tmr = none ∧ (s.func e).busy = false ∧ (s.func e).retired = false

/-- Command `c` ends engine `e`'s reflex by a fault of this reason: its completion is presented at the next ENG_CLK edge, and the
fault is counted and shown (R184). -/
def Faults (c : Instr) (s : State) (e reason : Nat) (also : State → Prop) : Prop :=
  ∃ u, exec c s = .next u ∧ (u.eng e).st = .done ∧ (u.eng e).flt = some reason ∧ (u.eng e).doneAt = s.eng2 + 1 ∧
    (u.eng e).lastFlt = reason ∧ (u.eng e).regs = (s.eng e).regs ∧ (u.eng e).sig = (s.eng e).sig ∧
    u.tw 0x0B e 4 = s.tw 0x0B e 4 + 1 ∧ u.reg 0x180C = s.reg 0x180C + 1 ∧ u.reg 0x1808 = wd (e + 512 * reason + 0x10000) ∧ also u

/-- Command `c` completes in state `s`, engine `e` is `y` afterwards, and all else is as in `s'`, with what the journal adds. -/
def Leaves (c : Instr) (s s' : State) (e : Nat) (y : Eng) : Prop :=
  ∃ u, exec c s = .next u ∧ u.eng e = y ∧ (∀ k, k ≠ e → u.eng k = s'.eng k) ∧
    Beside { s' with engs := u.engs, pending := s.pending } u

end Sys2Proof.Machine
end

