-- ==== Sys2Proof/Certificates/Slice0/Obligations.lean ====
section
/-! DEFINITION. The statements about the block, for the provers. Each docstring names the rule it formalises. -/

open Sys2Proof Sys2Proof.Machine

/-! ## The queue and the step -/

/-- A step with a command at the front of the queue is exec of that command on the state with the queue's rest. -/
def Obligations.StepRunsFront : Prop :=
  ∀ (c : Instr) (rest : List Instr) (s : State), step { s with pending := c :: rest } = exec c { s with pending := rest }

/-- Every command completes in every state, whatever its operands: no command faults or is refused, and none touches the
queue of waiting commands. -/
def Obligations.EveryCommandCompletes : Prop :=
  ∀ (c : Instr) (s : State), ∃ t, exec c s = .next t ∧ t.pending = s.pending

/-! ## Reflex instructions (10) -/

/-- R197, the register and immediate instructions that wrap or move bits: the destination register takes the value, every
other register, SAT, the accumulator and the loop state stay but for what the advance changes, and nothing else changes. R193, R197: the
saturating instructions write the exact result limited to 32 bits and set SAT when it does not fit. R195, R197: MAC, MSU, ACCLD and ACCADD
change the accumulator, limited to 72 bits; ACCRD rounds it into a register, 32 or 16 bits wide, and leaves it. -/
def Obligations.AluResults : Prop :=
  (∀ (s : State) (e : Nat) (d a b k : BitVec 5) (imm : BitVec 16),
     let x := s.eng e
     let u := s.wreg e a
     let v := s.wreg e b
     ∀ p ∈ ([(.add e d a b .ok, u + v), (.sub e d a b .ok, u - v), (.and e d a b .ok, u &&& v), (.or e d a b .ok, u ||| v),
         (.xor e d a b .ok, u ^^^ v), (.shl e d a b .ok, u <<< (v.toNat % 32)), (.shr e d a b .ok, u >>> (v.toNat % 32)),
         (.sra e d a b .ok, u.sshiftRight (v.toNat % 32)), (.min e d a b .ok, if u.toInt ≤ v.toInt then u else v),
         (.max e d a b .ok, if u.toInt ≤ v.toInt then v else u),
         (.clmp e d a b .ok, BitVec.ofInt 32 (min (max u.toInt v.toInt) (s.wreg e (b + 1)).toInt)),
         (.addi e d a imm .ok, u + imm.signExtend 32), (.andi e d a imm .ok, u &&& imm.setWidth 32),
         (.ori e d a imm .ok, u ||| imm.setWidth 32), (.ldi e d imm .ok, imm.signExtend 32),
         (.lui e d imm .ok, imm ++ (s.wreg e d).setWidth 16), (.shli e d a k .ok, u <<< k.toNat),
         (.shri e d a k .ok, u >>> k.toNat), (.srai e d a k .ok, u.sshiftRight k.toNat)] : List (Instr × Word)),
       Issues s e p.1 →
         Leaves p.1 s s e (({ x with regs := mSet (fun _ => 0) x.regs d.toNat p.2 }).advance s.eng2 (x.pc + 1) 1)) ∧
  (∀ (s : State) (e : Nat) (d a b sh : BitVec 5) (rnd : BitVec 2) (imm : BitVec 16),
     let x := s.eng e
     let u := (s.wreg e a).toInt
     let v := (s.wreg e b).toInt
     ∀ p ∈ ([(.adds e d a b .ok, u + v, 1), (.subs e d a b .ok, u - v, 1), (.abs e d a .ok, max u (-u), 1),
         (.addis e d a imm .ok, u + imm.toInt, 1),
         (.mul e d a b sh rnd .ok, roundShift (u * v) sh.toNat rnd, 2)] : List (Instr × Int × Nat)),
       Issues s e p.1 →
         Leaves p.1 s s e
           (({ x with regs := mSet (fun _ => 0) x.regs d.toNat (BitVec.ofInt 32 (max (-2 ^ 31) (min p.2.1 (2 ^ 31 - 1)))),
                      sat := x.sat || decide (p.2.1 < -2 ^ 31 ∨ 2 ^ 31 ≤ p.2.1) }).advance s.eng2 (x.pc + 1) p.2.2)) ∧
  (∀ (s : State) (e : Nat) (d a b sh : BitVec 5) (rnd : BitVec 2) (n16 : Bool),
     let x := s.eng e
     let u := (s.wreg e a).toInt
     let v := (s.wreg e b).toInt
     let w := roundShift x.acc.toInt sh.toNat rnd
     let top : Int := if n16 then 2 ^ 15 else 2 ^ 31
     (∀ p ∈ ([(.mac e a b .ok, x.acc.toInt + u * v, 2), (.msu e a b .ok, x.acc.toInt - u * v, 2),
         (.accld e a sh .ok, u * 2 ^ sh.toNat, 1), (.accadd e a sh .ok, x.acc.toInt + u * 2 ^ sh.toNat, 1)]
           : List (Instr × Int × Nat)),
       Issues s e p.1 →
         Leaves p.1 s s e
           (({ x with acc := BitVec.ofInt 72 (max (-2 ^ 71) (min p.2.1 (2 ^ 71 - 1))),
                      sat := x.sat || decide (p.2.1 < -2 ^ 71 ∨ 2 ^ 71 ≤ p.2.1) }).advance s.eng2 (x.pc + 1) p.2.2)) ∧
     (Issues s e (.accrd e d sh rnd n16 .ok) →
         Leaves (.accrd e d sh rnd n16 .ok) s s e
           (({ x with regs := mSet (fun _ => 0) x.regs d.toNat (BitVec.ofInt 32 (max (-top) (min w (top - 1)))),
                      sat := x.sat || decide (w < -top ∨ top ≤ w) }).advance s.eng2 (x.pc + 1) 3)))

/-- R194: the four rounding codes of a right shift, and in MUL and ACCRD the saturation that follows it. -/
def Obligations.RoundingCodes : Prop :=
  (∀ (v : Int) (sh : Nat) (rnd : BitVec 2),
     roundShift v 0 rnd = v ∧
     (0 < sh →
       let q := v / 2 ^ sh
       let rem := v % 2 ^ sh
       let half : Int := 2 ^ (sh - 1)
       roundShift v sh 0 = q ∧
       roundShift v sh 1 = (if half ≤ rem then q + 1 else q) ∧
       roundShift v sh 2 = (if half < rem ∨ (rem = half ∧ q % 2 = 1) then q + 1 else q) ∧
       roundShift v sh 3 = (if half < rem ∨ (rem = half ∧ 0 ≤ v) then q + 1 else q))) ∧
  (∀ (s : State) (e : Nat) (d a b sh : BitVec 5) (rnd : BitVec 2) (n16 : Bool),
     let x := roundShift ((s.wreg e a).toInt * (s.wreg e b).toInt) sh.toNat rnd
     let y := roundShift (s.eng e).acc.toInt sh.toNat rnd
     let top : Int := if n16 then 2 ^ 15 else 2 ^ 31
     (Issues s e (.mul e d a b sh rnd .ok) →
       ∃ u, exec (.mul e d a b sh rnd .ok) s = .next u ∧ u.wreg e d = BitVec.ofInt 32 (max (-2 ^ 31) (min x (2 ^ 31 - 1)))) ∧
     (Issues s e (.accrd e d sh rnd n16 .ok) →
       ∃ u, exec (.accrd e d sh rnd n16 .ok) s = .next u ∧ u.wreg e d = BitVec.ofInt 32 (max (-top) (min y (top - 1)))))

/-- R199, R200, R208: where an engine goes after an instruction of `n` cycles at edge `now` that is followed by index `t`: the
indices it passes are added to the signature, outside a loop and on a loop's first pass; the last instruction of a body with
iterations left goes back to the body's first, one cycle later.

R198: BR goes to i + 1 + off in 2 cycles when its condition holds, and to i + 1 in 1 cycle when it does not.

R199: LOOP begins a loop of `bound` iterations of the next `body` instructions; LOOPR of min(max(wa, 0), bound), and skips
the body when that is 0. -/
def Obligations.ControlFlow : Prop :=
  (∀ (x : Eng) (now t n : Nat),
     (x.lp = none → x.advance now t n =
       { x with pc := t, readyAt := now + n, sig := x.sig + wd (indexSum x.pc (t - x.pc)) }) ∧
     (∀ l, x.lp = some l →
       let g := if l.firstPass = true then x.sig + wd (indexSum x.pc (t - x.pc)) else x.sig
       (x.pc ≠ l.last → x.advance now t n = { x with pc := t, readyAt := now + n, sig := g }) ∧
       (x.pc = l.last → 1 < l.left → x.advance now t n =
         { x with pc := l.first, readyAt := now + n + 1, sig := g, lp := some { l with left := l.left - 1, firstPass := false } }) ∧
       (x.pc = l.last → l.left ≤ 1 → x.advance now t n = { x with pc := t, readyAt := now + n, sig := g, lp := none })) ∧
     (∀ i k, indexSum i k = ((List.range k).map (i + ·)).sum)) ∧
  (∀ (s : State) (e : Nat) (a b : BitVec 5) (off : BitVec 11),
     let x := s.eng e
     let u := s.wreg e a
     let v := s.wreg e b
     ∀ p ∈ ([(0x00, True), (0x01, u = v), (0x02, u ≠ v), (0x03, u.toInt < v.toInt), (0x04, v.toInt ≤ u.toInt),
         (0x05, u < v), (0x06, v ≤ u), (0x07, x.sat = true), (0x08, x.sat = false), (0x09, u &&& v ≠ 0),
         (0x0A, u &&& v = 0)] : List (BitVec 5 × Prop)),
       Issues s e (.br e p.1 a b off .ok) →
         (p.2 → Leaves (.br e p.1 a b off .ok) s s e (x.advance s.eng2 (x.pc + 1 + off.toNat) 2)) ∧
         (¬p.2 → Leaves (.br e p.1 a b off .ok) s s e (x.advance s.eng2 (x.pc + 1) 1))) ∧
  (∀ (s : State) (e : Nat) (a : BitVec 5) (body bound : BitVec 8),
     let x := s.eng e
     let begin_ := fun (n : Nat) =>
       { x.advance s.eng2 (x.pc + 1) 1 with
         lp := some { first := x.pc + 1, last := x.pc + body.toNat, left := n, firstPass := true } }
     let n := min (max (s.wreg e a).toInt 0).toNat bound.toNat
     (Issues s e (.loop e body bound .ok) → Leaves (.loop e body bound .ok) s s e (begin_ bound.toNat)) ∧
     (Issues s e (.loopr e a body bound .ok) →
       (n ≠ 0 → Leaves (.loopr e a body bound .ok) s s e (begin_ n)) ∧
       (n = 0 → Leaves (.loopr e a body bound .ok) s s e (x.advance s.eng2 (x.pc + body.toNat + 1) 1))))

/-- R197, R206: NOP only passes its cycle; RDS writes the engine number, the cycle count, the free held places, the number of
staged writes or a part of the accumulator, as its selector names.

R201: LDS and LDSX read a word of the state slot in 2 cycles, 3 when an error was corrected; STS and STSX write one. The
word of LDSX and STSX is wa + off in 32 bits.

R178: of two engines that reach one word at one edge, the lower acts first, whatever order their commands come in: it does
not see the other's write, the other sees its, also in a read it has taken at the edge before, and the other's write stays. -/
def Obligations.StatusAndSlots : Prop :=
  (∀ (s : State) (e : Nat) (d : BitVec 5),
     let x := s.eng e
     (Issues s e (.nop e .ok) → Leaves (.nop e .ok) s s e (x.advance s.eng2 (x.pc + 1) 1)) ∧
     (e < 512 →
       let q := s.openSeq e
       let held := (q.map fun q => q.locks.foldl max 0).getD 0
       let occ := (s.engOcc e).map Occ.st
       let flag := fun (b : Prop) [Decidable b] (n : Nat) => if b then n else 0
       ∀ p ∈ ([(0, wd (e + 512 * (e / 32))), (1, wd (s.eng2 - x.startAt + 1)),
           (2, wd (flag (x.sat = true) 1 + flag (q.isSome = true) 2 + flag (occ = some .ordered) 4 + flag (occ = some .squashed) 8)),
           (3, wd (8 - s.heldBy e)), (4, wd (held % 64 + flag (q.isSome = true) 64)),
           (5, wd (((s.openSeq e).map fun q => q.writes.length).getD 0)), (6, x.acc.setWidth 32),
           (7, (x.acc >>> 32).setWidth 32), (8, ((x.acc >>> 64).setWidth 8).signExtend 32)] : List (BitVec 5 × Word)),
         Issues s e (.rds e d p.1 .ok) →
           Leaves (.rds e d p.1 .ok) s s e
             (({ x with regs := mSet (fun _ => 0) x.regs d.toNat p.2 }).advance s.eng2 (x.pc + 1) 1))) ∧
  (∀ (s : State) (e : Nat) (d a : BitVec 5) (off : BitVec 8),
     let x := s.eng e
     let far := (s.wreg e a + off.setWidth 32).toNat
     let load := fun (j n : Nat) =>
       { ({ x with regs := mSet (fun _ => 0) x.regs d.toNat (s.slotWord e j) }).advance s.eng2 (x.pc + 1) n with
         ldAt := some (s.eng2, j, d) }
     let store := fun (j : Nat) => s.slotWrite e j (s.wreg e d)
     (Issues s e (.lds e d off .ok) →
       Leaves (.lds e d off .ok) s s e (load off.toNat 2) ∧ Leaves (.lds e d off .eccCorr) s s e (load off.toNat 3)) ∧
     (Issues s e (.ldsx e d a off .ok) →
       Leaves (.ldsx e d a off .ok) s s e (load far 2) ∧ Leaves (.ldsx e d a off .eccCorr) s s e (load far 3)) ∧
     (Issues s e (.sts e d off .ok) →
       Leaves (.sts e d off .ok) s (store off.toNat) e (x.advance s.eng2 (x.pc + 1) 1)) ∧
     (Issues s e (.stsx e d a off .ok) →
       Leaves (.stsx e d a off .ok) s (store far) e (x.advance s.eng2 (x.pc + 1) 1))) ∧
  (∀ (s : State) (e f j : Nat) (v w : Word), e < f → f < 512 → (s.eng e).slot = (s.eng f).slot →
     let i := 16 * (s.eng e).slot + j / 16
     mFind s.edge.slots (tKey 0x10 i (j % 16)) = none →
       s.slotWord e j = s.tw 0x10 i (j % 16) ∧ (s.setSlotWord e j v).tw 0x10 i (j % 16) = v ∧
       (s.setSlotWord f j w).slotWord e j = s.tw 0x10 i (j % 16) ∧ (s.setSlotWord e j v).slotWord f j = v ∧
       ((s.setSlotWord e j v).setSlotWord f j w).tw 0x10 i (j % 16) = w ∧
       ((s.setSlotWord f j w).setSlotWord e j v).tw 0x10 i (j % 16) = w ∧
       (∀ d, mWf (fun _ => {}) s.engs = true →
         (∀ k, (s.slotWrite e j v).tw 0x10 i k = (s.setSlotWord e j v).tw 0x10 i k) ∧
         ((s.eng f).ldAt = some (s.eng2, j, d) → (s.slotWrite e j v).wreg f d = v) ∧
         (((s.eng f).ldAt.map fun x => (x.1, x.2.1)) ≠ some (s.eng2, j) → (s.slotWrite e j v).eng f = s.eng f)))

/-- R202, R204, R212: where a write of OUT goes, and of OUTH outside a run-ahead instance: counted and discarded when no
outbound window lets it pass; staged behind the sequence's others under a lock; else the last place of the cluster's
queue, or a stall when the queue is full. Those that stall wait by the edge they stalled at, then by engine.

R159, R203: OUTH in a run-ahead instance outside a locked sequence takes a held place while the release is not ordered and a
place is free; once the occurrence is squashed it is discarded; once its release is ordered it enters the queue, or waits for an
entry there, and the first such write marks the occurrence late.

R212: a write passes the outbound windows exactly when the port is enabled, the block serves, and an enabled entry holds
its address and the pool the engine works for. -/
def Obligations.OutWrites : Prop :=
  (∀ (s : State) (e : Nat) (r a : BitVec 5) (off : BitVec 16),
     let x := s.eng e
     let c := s.cluster (e / 16)
     let to_ := (s.wreg e a &&& 0xFFFFFFFC#32) + (off.signExtend 32 <<< 2)
     let v := s.wreg e r
     let go := x.advance s.eng2 (x.pc + 1) 1
     ∀ p ∈ ([(.out e r a off .ok, false), (.outh e r a off .ok, true)] : List (Instr × Bool)),
       Issues s e p.1 → (p.2 = true → s.engOcc e = none) →
         (s.outPass e to_ = false → bit (s.reg 0x1C00) 1 = false →
           Leaves p.1 s (((s.bump 0x1C24).setReg 0x1C08 to_).setReg 0x1C0C (wd (e + 0x200))) e go) ∧
         (∀ q, s.outPass e to_ = true → s.openSeq e = some q → q.writes.length < 32 →
           Leaves p.1 s (s.setLseq { q with writes := q.writes ++ [(to_, v)], outh := q.outh || p.2 }) e go) ∧
         (s.outPass e to_ = true → s.openSeq e = none → c.used < 16 → c.stalled = [] →
           Leaves p.1 s (s.setCluster (e / 16)
             { c with queue := c.queue ++ [.plain e to_ v], reqAt := if c.queue.isEmpty then s.eng2 else c.reqAt }) e go) ∧
         (s.outPass e to_ = true → s.openSeq e = none → (16 ≤ c.used ∨ c.stalled ≠ []) →
           Leaves p.1 s (s.setCluster (e / 16) { c with stalled := insertStalled (s.eng2, e, .plain e to_ v) c.stalled }) e
             { go with stall := .queue })) ∧
  (∀ (t e : Nat) (i : QItem) (l : List (Nat × Nat × QItem)),
     (insertStalled (t, e, i) l).Perm ((t, e, i) :: l) ∧
     (l.Pairwise (fun x y => x.1 < y.1 ∨ x.1 = y.1 ∧ x.2.1 ≤ y.2.1) →
       (insertStalled (t, e, i) l).Pairwise fun x y => x.1 < y.1 ∨ x.1 = y.1 ∧ x.2.1 ≤ y.2.1)) ∧
  (∀ (s : State) (e : Nat) (r a : BitVec 5) (off : BitVec 16) (o : Occ),
     let x := s.eng e
     let to_ := (s.wreg e a &&& 0xFFFFFFFC#32) + (off.signExtend 32 <<< 2)
     let go := x.advance s.eng2 (x.pc + 1) 1
     Issues s e (.outh e r a off .ok) → s.outPass e to_ = true → s.openSeq e = none → s.engOcc e = some o →
       (o.st = .launched → s.heldBy e < 8 →
         Leaves (.outh e r a off .ok) s
           { s with occs := mPut s.occs o.id { o with engine := some e, places := o.places ++ [.write to_ (s.wreg e r)] } } e go) ∧
       (o.st = .squashed → Leaves (.outh e r a off .ok) s s e go) ∧
       (o.st = .ordered → mFind s.occs o.id = some o →
         let c := s.cluster (e / 16)
         (c.used < 16 → c.stalled = [] →
           ∃ u, exec (.outh e r a off .ok) s = .next u ∧ u.eng e = go ∧
             (u.cluster (e / 16)).queue = c.queue ++ [.plain e to_ (s.wreg e r)] ∧
             (o.lrel = true → mFind u.occs o.id = some o ∧ u.tw 0x0A o.ctx 15 = s.tw 0x0A o.ctx 15) ∧
             (o.lrel = false → mFind u.occs o.id = some { o with lrel := true, late := true } ∧ (u.ctx o.ctx).late = true ∧
               u.tw 0x0A o.ctx 15 = s.tw 0x0A o.ctx 15 + 1 ∧
               u.tw 0x0A o.ctx 11 = s.tw 0x0A o.ctx 11 + (if o.late then 0 else 1))) ∧
         (16 ≤ c.used ∨ c.stalled ≠ [] →
           Leaves (.outh e r a off .ok) s (s.setCluster (e / 16)
             { c with stalled := insertStalled (s.eng2, e, .late e o.id to_ (s.wreg e r)) c.stalled }) e { go with stall := .queue }))) ∧
  (∀ (s : State) (e : Nat) (a : Word),
     s.outPass e a = true ↔
       s.serving = true ∧ bit (s.reg 0x1C00) 0 = true ∧
         ∃ i < 16, bit (s.tw 0x11 i 4) 0 = true ∧ s.tw 0x11 i 0 ≤ a ∧ a ≤ s.tw 0x11 i 1 ∧
           (let p := (s.eng e).pool; bit (s.tw 0x11 i (2 + p / 32)) (p % 32) = true))

/-- R204, R221: LOCK of a free lock above every lock the engine holds acquires it at its issue edge: a sequence begins, or
takes one more; of a lock that is held, the engine waits in its queue.

R204, R222: REL with no lock held does nothing; of a sequence with no writes it is COMMITTED, its locks freed at the edge
after; of an ordinary sequence with writes it queues the burst marker, which waits for an entry of a full queue while the engine
goes on.

R159, R169: in a run-ahead instance a sequence with held writes passes to its occurrence and takes one held place while the release
is not ordered; it is an ordinary one, and late, once the release is ordered, and ABANDONED once the occurrence is squashed. One
without held writes is ordinary. -/
def Obligations.LocksAndReleases : Prop :=
  (∀ (s : State) (e : Nat) (n : BitVec 6),
     let x := s.eng e
     Issues s e (.lock e n .ok) →
       ((s.lock n.toNat).owner = none → x.seqId = none →
         ∃ u, exec (.lock e n .ok) s = .next u ∧ (u.lock n.toNat).owner = some s.seqNext ∧ (u.lock n.toNat).engine = e ∧
           (u.lock n.toNat).acq = s.eng2 ∧ (u.eng e).seqId = some s.seqNext ∧ (u.eng e).readyAt = s.eng2 + 2 ∧
           (u.eng e).pc = (x.advance s.eng2 (x.pc + 1) 2).pc ∧
           u.lseq s.seqNext = some { id := s.seqNext, engine := e, locks := [n.toNat], writes := [], outh := false, ph := .opened } ∧
           u.tw 0x12 n.toNat 2 = s.tw 0x12 n.toNat 2 + 1 ∧ (∀ k, k ≠ n.toNat → u.lock k = s.lock k)) ∧
       (∀ id q, (s.lock n.toNat).owner = none → x.seqId = some id → s.lseq id = some q → q.id = id →
           (∀ l ∈ q.locks, l < n.toNat) →
         ∃ u, exec (.lock e n .ok) s = .next u ∧ (u.lock n.toNat).owner = some id ∧
           u.lseq id = some { q with locks := q.locks ++ [n.toNat] } ∧ (u.eng e).seqId = some id) ∧
       ((s.lock n.toNat).owner ≠ none → x.seqId = none →
         ∃ u, exec (.lock e n .ok) s = .next u ∧ (u.eng e).stall = .lock n.toNat ∧
           u.lock n.toNat = { s.lock n.toNat with waiters := (s.lock n.toNat).waiters ++ [(s.eng2, e)] })) ∧
  (∀ (s : State) (e : Nat),
     let x := s.eng e
     Issues s e (.rel e .ok) →
       (s.openSeq e = none → Leaves (.rel e .ok) s s e (x.advance s.eng2 (x.pc + 1) 1)) ∧
       (∀ q, s.openSeq e = some q → x.seqId = some q.id → q.engine = e → s.engOcc e = none → q.writes = [] →
         ∃ u, exec (.rel e .ok) s = .next u ∧ u.lseq q.id = some { q with ph := .ending (s.eng2 + 1) } ∧
           (u.eng e).seqId = none ∧ ∀ l ∈ q.locks, (u.lock l).last = 1) ∧
       (∀ q, s.openSeq e = some q → x.seqId = some q.id → s.engOcc e = none → q.writes ≠ [] →
           (s.cluster (e / 16)).used < 16 → (s.cluster (e / 16)).stalled = [] →
         ∃ u, exec (.rel e .ok) s = .next u ∧ u.lseq q.id = some { q with ph := .queued } ∧ (u.eng e).seqId = none ∧
           (u.cluster (e / 16)).queue = (s.cluster (e / 16)).queue ++ [.marker q.id] ∧ ∀ l, u.lock l = s.lock l) ∧
       (∀ q, s.openSeq e = some q → x.seqId = some q.id → s.engOcc e = none → q.writes ≠ [] →
           (16 ≤ (s.cluster (e / 16)).used ∨ (s.cluster (e / 16)).stalled ≠ []) →
         ∃ u, exec (.rel e .ok) s = .next u ∧ u.lseq q.id = some { q with ph := .queued } ∧
           u.eng e = { x.advance s.eng2 (x.pc + 1) 1 with seqId := none } ∧
           u.cluster (e / 16) = { s.cluster (e / 16) with
             stalled := insertStalled (s.eng2, e, .marker q.id) (s.cluster (e / 16)).stalled }) ∧
       (∀ q o, s.openSeq e = some q → x.seqId = some q.id → s.engOcc e = some o → mFind s.occs o.id = some o → q.writes ≠ [] →
         (q.outh = false → (s.cluster (e / 16)).used < 16 → (s.cluster (e / 16)).stalled = [] →
           ∃ u, exec (.rel e .ok) s = .next u ∧ u.lseq q.id = some { q with ph := .queued } ∧ (u.eng e).seqId = none ∧
             (u.cluster (e / 16)).queue = (s.cluster (e / 16)).queue ++ [.marker q.id] ∧ u.occs = s.occs) ∧
         (q.outh = true → o.st = .launched → s.heldBy e < 8 →
           ∃ u, exec (.rel e .ok) s = .next u ∧ (∃ y, u.lseq q.id = some y ∧ y.ph = .occHeld o.id ∧ y.writes = q.writes) ∧
             u.eng e = { x.advance s.eng2 (x.pc + 1) 1 with seqId := none } ∧
             mFind u.occs o.id = some { o with engine := some e, places := o.places ++ [.seq q.id] } ∧
             u.clusters = s.clusters ∧ u.locks = s.locks) ∧
         (q.outh = true → o.st = .ordered → (s.cluster (e / 16)).used < 16 → (s.cluster (e / 16)).stalled = [] →
           ∃ u, exec (.rel e .ok) s = .next u ∧ u.lseq q.id = some { q with ph := .queued } ∧ (u.eng e).seqId = none ∧
             (u.cluster (e / 16)).queue = (s.cluster (e / 16)).queue ++ [.marker q.id] ∧
             (o.lrel = false → u.tw 0x0A o.ctx 15 = s.tw 0x0A o.ctx 15 + 1 ∧ (u.ctx o.ctx).late = true)) ∧
         (q.outh = true → o.st = .squashed → q.engine = e →
           ∃ u, exec (.rel e .ok) s = .next u ∧ (∃ y, u.lseq q.id = some y ∧ y.ph = .ending (s.eng2 + 1)) ∧ (u.eng e).seqId = none ∧
             ∀ l ∈ q.locks, (u.lock l).last = 2)))

/-- R205, R186: RAISE is judged one ENG_CLK edge after its issue. A due one writes 0 and raises the engine's source with its
payload while that holds fewer than 4 instances; otherwise it writes 1 and counts in RFX_N_ROVR. An instance whose completion
work is done at that edge leaves first.

R181, R185, R207, R208: END with a matching signature ends the reflex: its completion is presented at the next ENG_CLK edge
and RFX_ECYC shows its cycle count and keeps the longest. -/
def Obligations.RaisesAndEnds : Prop :=
  (∀ (s : State) (e : Nat) (d a : BitVec 5),
     let x := s.eng e
     (Issues s e (.raise e d a .ok) →
       Leaves (.raise e d a .ok) s s e
         { x.advance s.eng2 (x.pc + 1) 1 with raiseAt := some (2 * (s.eng2 + 1), s.wreg e a, d) }) ∧
     (∀ t pay, e < 512 → (s.eng e).raiseAt = some (t, pay, d) → t ≤ s.rank → s.serving = true →
       let s' := s.settleRaise e
       ((s.src (0x5800 + e)).st ≠ .completing → (s.src (0x5800 + e)).q.length < 4 →
         s'.wreg e d = 0 ∧ (s'.eng e).raiseAt = none ∧ (s'.src (0x5800 + e)).q = (s.src (0x5800 + e)).q ++ [{ payload := pay }]) ∧
       (∀ i rest, (s.src (0x5800 + e)).st = .completing → (s.src (0x5800 + e)).kept = false → s.heldBack (0x5800 + e) = false →
           (s.src (0x5800 + e)).since + 2 ≤ s.rank → (s.src (0x5800 + e)).q = i :: rest → rest.length < 4 →
         s'.wreg e d = 0 ∧ (s'.eng e).raiseAt = none ∧ (s'.src (0x5800 + e)).q = rest ++ [{ payload := pay }]) ∧
       ((s.src (0x5800 + e)).st ≠ .completing → 4 ≤ (s.src (0x5800 + e)).q.length →
         s'.wreg e d = 1 ∧ (s'.eng e).raiseAt = none ∧ (s'.src (0x5800 + e)).q = (s.src (0x5800 + e)).q ∧
           s'.tw 0x0B e 6 = s.tw 0x0B e 6 + 1))) ∧
  (∀ (s : State) (e : Nat),
     let x := s.eng e
     let n := s.cycles e
     Issues s e (.endR e .ok) → x.sig + wd x.pc = x.dsig → n < 65536 →
       Leaves (.endR e .ok) s
         (s.setTw 0x0B e 2 (wd (n + 65536 * max n ((s.tw 0x0B e 2).toNat / 65536)))) e
         { x with st := .done, doneAt := s.eng2 + 1, flt := none })

/-- R181, R184, R192, R196, R198-R202, R204, R207, R209: the faults of an instruction. In this order: the budget spent before it, its index
outside the reflex, an uncorrectable word, a word that is none or breaks a placement rule, a slot word out of range. Each ends the
reflex at that edge with nothing of the instruction done. So does a lock out of order, the 33rd staged write, a full set of held
places, an END whose signature does not match, and a residue mismatch of an instruction of one cycle; of a longer one in its last
cycle, and an uncorrectable slot word one edge later.

The model's choice (log 123): an instruction that comes at the edge of its engine's RAISE waits for that to be judged, and issues as
the edge ends. -/
def Obligations.InstructionFaults : Prop :=
  (∀ (s : State) (e : Nat) (d a b k : BitVec 5) (imm : BitVec 16) (o : BitVec 8) (off : BitVec 11) (rnd : BitVec 2) (n16 : Bool)
     (body bound : BitVec 8) (n : BitVec 6) (chk : Chk), s.snt.warmDue = false → s.issuing e = true →
     let x := s.eng e
     let c := s.cycles e
     let timely := c < x.budget ∨ c = x.budget ∧ s.fetched e = endWord
     let within := x.entry ≤ x.pc ∧ x.pc < x.entry + x.len
     ∀ i ∈ reflexRows e d a b k imm o off rnd n16 body bound n chk,
       (s.raiseDue e = true → Gives i s { s with edge := { s.edge with issues := s.edge.issues ++ [i] } }) ∧
       (Plain s e → s.raiseDue e = false → s.seqsOf e = [] →
         (¬timely → Faults i s e 1 fun _ => True) ∧
         (timely → ¬within → Faults i s e 6 fun _ => True) ∧
         (timely → within → chk = .eccFetch → Faults i s e 3 fun _ => True) ∧
         (timely → within → chk ≠ .eccFetch → readWord e (s.fetched e) = none → Faults i s e 2 fun _ => True) ∧
         (timely → within → chk ≠ .eccFetch → (readWord e (s.fetched e)).any (s.misplaced e) = true → Faults i s e 2 fun _ => True))) ∧
  (∀ (s : State) (e : Nat) (d a b k : BitVec 5) (imm : BitVec 16) (o : BitVec 8) (off : BitVec 11) (rnd : BitVec 2) (n16 : Bool)
     (body bound : BitVec 8) (n : BitVec 6) (i : Instr), s.snt.warmDue = false → s.issuing e = true → (s.eng e).raiseAt.isSome = true →
     s.raiseDue e = true → s.engs = [(e, s.eng e)] → s.edge.issues = [i] →
     i ∈ reflexRows e d a b k imm o off rnd n16 body bound n .ok →
       exec i { s.settleRaise e with edge := { (s.settleRaise e).edge with issues := [] } } = .next s.endRaises) ∧
  (∀ (s : State) (e : Nat) (a b c : BitVec 5) (off : BitVec 11) (body bound : BitVec 8) (n : BitVec 6) (chk : Chk),
     let x := s.eng e
     let last := x.entry + x.len - 1
     (∀ i ∈ ([.loop e body bound chk, .loopr e a body bound chk] : List Instr),
       s.misplaced e i = true ↔ x.lp ≠ none ∨ last ≤ x.pc + body.toNat) ∧
     (∀ i ∈ ([.lock e n chk, .rel e chk] : List Instr), s.misplaced e i = true ↔ x.lp ≠ none) ∧
     (s.misplaced e (.endR e chk) = true ↔ x.lp ≠ none ∨ x.seqId ≠ none ∨ x.pc ≠ last) ∧
     (s.misplaced e (.br e c a b off chk) = true ↔
       ∃ l, x.lp = some l ∧ s.branchHolds e c a b = true ∧ off ≠ 0 ∧ l.last < x.pc + 1 + off.toNat)) ∧
  (∀ (s : State) (e : Nat) (d a b k : BitVec 5) (imm : BitVec 16) (o : BitVec 8) (rnd : BitVec 2) (n16 : Bool), Plain s e → s.seqsOf e = [] →
     let x := s.eng e
     let far := (s.wreg e a + o.setWidth 32).toNat
     (∀ p ∈ ([(fun c => .lds e d o c, o.toNat), (fun c => .ldsx e d a o c, far), (fun c => .sts e d o c, o.toNat),
         (fun c => .stsx e d a o c, far)] : List ((Chk → Instr) × Nat)),
       Fetches s e (p.1 .ok) → x.slotv = false ∨ 255 < p.2 → Faults (p.1 .ok) s e 6 fun u => u.tbl.filter (fun y => y.1 / 2 ^ 24 = 0x10) =
         s.tbl.filter (fun y => y.1 / 2 ^ 24 = 0x10)) ∧
     (∀ p ∈ ([fun c => .lds e d o c, fun c => .ldsx e d a o c] : List (Chk → Instr)), Issues s e (p .ok) →
       Leaves (p .eccSlot) s s e { x with faultAt := some (s.eng2 + 1, 3, false) }) ∧
     (∀ p ∈ ([fun c => .add e d a b c, fun c => .sub e d a b c, fun c => .adds e d a b c, fun c => .subs e d a b c, fun c => .abs e d a c,
         fun c => .addi e d a imm c, fun c => .addis e d a imm c, fun c => .accld e a k c, fun c => .accadd e a k c,
         fun c => .stsx e d a o c] : List (Chk → Instr)),
       Issues s e (p .ok) → Faults (p .residue) s e 4 fun u => (u.eng e).acc = x.acc) ∧
     (∀ p ∈ ([fun c => .out e d a imm c, fun c => .outh e d a imm c] : List (Chk → Instr)),
       Issues s e (p .ok) → (s.cluster (e / 16)).used < 16 → (s.cluster (e / 16)).stalled = [] → Faults (p .residue) s e 4 fun u => u.cluster (e / 16) = s.cluster (e / 16)) ∧
     (∀ p ∈ ([(fun c => .mul e d a b k rnd c, 1), (fun c => .mac e a b c, 1), (fun c => .msu e a b c, 1), (fun c => .ldsx e d a o c, 1),
         (fun c => .accrd e d k rnd n16 c, 2)] : List ((Chk → Instr) × Nat)),
       Issues s e (p.1 .ok) → Leaves (p.1 .residue) s s e { x with faultAt := some (s.eng2 + p.2, 4, false) }) ∧
     (Issues s e (.endR e .ok) → x.sig + wd x.pc ≠ x.dsig → Faults (.endR e .ok) s e 5 fun u => u.tw 0x0B e 2 = s.tw 0x0B e 2) ∧
     (∀ t r, x.faultAt = some (t, r, false) → t ≤ s.eng2 → s.engs = [(e, x)] →
       (s.dueFaults.eng e).st = .done ∧ (s.dueFaults.eng e).flt = some r ∧ (s.dueFaults.eng e).doneAt = s.eng2 + 1 ∧
         (s.dueFaults.eng e).regs = x.regs ∧ s.dueFaults.reg 0x180C = s.reg 0x180C + 1)) ∧
  (∀ (s : State) (e : Nat) (r a : BitVec 5) (imm : BitVec 16) (n : BitVec 6) (q : LSeq), Plain s e → s.openSeq e = some q →
     (s.eng e).seqId = some q.id → s.seqsOf e = [q] → q.ph = .opened → q.engine = e → s.seqCtx q = none →
     let to_ := (s.wreg e a &&& 0xFFFFFFFC#32) + (imm.signExtend 32 <<< 2)
     let ends := fun (u : State) => u.lseq q.id = some { q with ph := .ending (s.eng2 + 1) } ∧ ∀ l ∈ q.locks, (u.lock l).last = 2
     (Issues s e (.lock e n .ok) → (∃ l ∈ q.locks, n.toNat ≤ l) →
       Faults (.lock e n .ok) s e 8 fun u => ends u ∧ (u.lock n.toNat).owner = (s.lock n.toNat).owner) ∧
     (∀ i ∈ ([.out e r a imm .ok, .outh e r a imm .ok] : List Instr), Issues s e i → s.outPass e to_ = true → q.writes.length = 32 →
       Faults i s e 0xA ends)) ∧
  (∀ (s : State) (e : Nat) (r a : BitVec 5) (imm : BitVec 16) (o : Occ), e < 512 → (s.eng e).occ = some o.id → mFind s.occs o.id = some o →
     (s.eng e).stall = .none → (s.func e).tmr = none → (s.func e).busy = false → (s.func e).retired = false → s.seqsOf e = [] →
     o.st = .launched → o.ctx < 4096 → (s.src (0x4800 + o.ctx)).st = .active →
     ((s.src (0x4800 + o.ctx)).q.any fun i => i.occ == some o.id) = true → (∀ p ∈ o.places, ∃ a d, p = .write a d) → bit (s.ccfg o.ctx) 8 = true →
     let to_ := (s.wreg e a &&& 0xFFFFFFFC#32) + (imm.signExtend 32 <<< 2)
     Issues s e (.outh e r a imm .ok) → s.outPass e to_ = true → s.openSeq e = none → 8 ≤ s.heldBy e →
       Faults (.outh e r a imm .ok) s e 9 fun u =>
         mFind u.occs o.id = some { o with st := .squashed, entry := false, places := [] } ∧ (u.ctx o.ctx).sqr = 7 ∧
           u.reg 0x1414 = s.reg 0x1414 + 1)

/-! ## Intake (03, 04) -/

/-- R52: the Class 0 sources are the wired inputs 0 to 63 with dp = 1. R101, R122: raising an instance. A block that does not
serve raises none (R250, R284). While the source holds an instance the new one waits behind it; an idle source goes Pending, its
sequence number advances, and its entry enters the ranking pipeline, or awaits the direct path when it is Class 0.

R81, R84, R90, R91: in the pipeline an entry goes one stage at an edge; at stage 4 a Class 2 or 3 entry takes its tenant's usage
level as its share, and is charged; at stage 5 it takes its destination's insertion count as its stamp, the count advances by one,
and the entry waits at stage 6. -/
def Obligations.RaiseAnInstance : Prop :=
  (∀ (s : State) (p : Nat) (i : Inst),
     (s.isC0 p = true ↔ p ≤ 63 ∧ bit (s.reg (0x0400 + 8 * p)) 0 = true) ∧
     (s.serving = false → s.raise p i = s) ∧
     (s.serving = true → (s.src p).q ≠ [] →
       (s.raise p i).src p = { s.src p with q := (s.src p).q ++ [i] } ∧ ∀ r, r ≠ p → (s.raise p i).src r = s.src r) ∧
     (s.serving = true → (s.src p).q = [] →
       let x := (s.raise p i).src p
       x.st = .pending ∧ x.q = [i] ∧ x.since = s.rank ∧ x.pendAt = s.rank ∧ x.key.psn = p ∧
       (∀ r, r ≠ p → (s.raise p i).src r = s.src r) ∧
       (s.isC0 p = true → x.place = .direct ∧ x.key.cls = 0 ∧ x.seq = (s.inp p).seq0 + 1) ∧
       (s.isC0 p = false → x.place = .pipe ∧ x.stage = 1 ∧ x.keep = {} ∧ x.key.cls = s.heapCls p ∧ x.key.prio = s.prio p ∧
         (isCtx p = false → x.seq = (s.src p).seq + 1)))) ∧
  (∀ (s : State) (p : Nat), (s.src p).place = .pipe →
     let x := s.src p
     ((s.pipeStep.src p).stage = x.stage + 1 ∧ (s.pipeStep.src p).key = x.key ∧ (s.pipeStep.src p).keep = x.keep) ∧
     (2 ≤ x.key.cls → x.keep.share = none →
       ((s.stage4 p).src p).key.share = s.u (s.stenant p) x.key.cls ∧
       (s.stage4 p).u (s.stenant p) x.key.cls = min (s.u (s.stenant p) x.key.cls + s.cost (s.stenant p)) 0x7FFF) ∧
     ((x.key.cls < 2 ∨ x.keep.share ≠ none) → s.stage4 p = s) ∧
     (mWf (fun _ => {}) s.srcs = true → x.stage = 5 → x.keep = {} →
       (s.stage5.src p).place = .wait6 ∧ (s.stage5.src p).key = { x.key with stamp := (s.dst x.dst).stamp } ∧
       (s.stage5.dst x.dst).stamp = (s.dst x.dst).stamp + 1))

/-- R40-R46: a wired input's change. Seen on fewer samples than its filter asks, it is counted and nothing else; an edge that
the sense mode raises on passes when no interval runs, and restarts it; within the interval it is coalesced; at the
interval's end an edge that was coalesced passes.

R41, R43: a level-sensed input raises when its level becomes active, or at its interval's end, if it holds no instance; the storm guard's
refusal is counted and restarts the interval, and the input tries again no sooner than a tick with a token; else the level moves and
nothing is raised or counted. -/
def Obligations.WiredInputs : Prop :=
  ∀ (s : State) (n k : Nat) (pin : Bool), n < 2048 → s.domStill 0 = false → s.snt.warmDue = false →
    let c := s.wcfg n
    let lvl := xor pin (bit c 1)
    let moved := fun (x : InSt) => { { x with pin := pin } with level := lvl }
    let pass := fun (x : InSt) =>
      { x with meiOn := true, passRank := s.rank, passTick := s.ticks, passLevel := x.level, coal := false }
    (k < fld c 4 4 + 1 → lvl ≠ (s.inp n).level → Gives (.wiredInputChange n pin k) s (s.bumpTw 0x02 n 8)) ∧
    (fld c 4 4 + 1 ≤ k → lvl = (s.inp n).level →
      Gives (.wiredInputChange n pin k) s (s.modIn n fun x => { x with pin := pin })) ∧
    (fld c 4 4 + 1 ≤ k → lvl ≠ (s.inp n).level → bit c 0 = true →
      (fld c 2 2 = 3 ∨ (fld c 2 2 = 1 ∧ lvl = true) ∨ (fld c 2 2 = 2 ∧ lvl = false)) →
      (s.meiOver n = false →
        ∃ u, exec (.wiredInputChange n pin k) s = .next u ∧ u.inp n = { moved (s.inp n) with coal := true } ∧
          u.tw 0x02 n 5 = s.tw 0x02 n 5 + 1 ∧ u.src n = s.src n) ∧
      (s.meiOver n = true → fld (s.tw 0x02 n 2) 0 8 = 0 → s.serving = true → s.isC0 n = false → (s.src n).q.length < 15 →
        ∃ u, exec (.wiredInputChange n pin k) s = .next u ∧ u.inp n = pass (moved (s.inp n)) ∧
          (u.src n).q = (s.src n).q ++ [({} : Inst)] ∧ u.tw 0x02 n 4 = s.tw 0x02 n 4 + 1) ∧
      (s.meiOver n = true → 15 ≤ (s.src n).q.length →
        ∃ u, exec (.wiredInputChange n pin k) s = .next u ∧ u.inp n = pass (moved (s.inp n)) ∧
          u.src n = s.src n ∧ u.tw 0x02 n 6 = s.tw 0x02 n 6 + 1)) ∧
    (let x := s.inp n;
      x.meiOn = true → s.meiOver n = true → bit c 0 = true → fld c 2 2 = 3 → x.coal = true → x.level ≠ x.passLevel →
      fld (s.tw 0x02 n 2) 0 8 = 0 → s.serving = true → s.isC0 n = false → (s.src n).q.length < 15 →
        ∃ u, exec (.meiExpiry n) s = .next u ∧ u.inp n = pass x ∧ (u.src n).q = (s.src n).q ++ [({} : Inst)] ∧
          u.tw 0x02 n 4 = s.tw 0x02 n 4 + 1) ∧
    (fld c 4 4 + 1 ≤ k → lvl ≠ (s.inp n).level → fld c 2 2 = 0 →
      (lvl = false ∨ bit c 0 = false ∨ (s.src n).q ≠ [] ∨ s.meiOver n = false ∨ (s.inp n).retry = true ∨ s.serving = false →
        Gives (.wiredInputChange n pin k) s (s.modIn n moved)) ∧
      (lvl = true → bit c 0 = true → (s.src n).q = [] → s.meiOver n = true → (s.inp n).retry = false → s.serving = true →
        (fld (s.tw 0x02 n 2) 0 8 ≠ 0 → (s.inp n).tokens = 0 →
          Gives (.wiredInputChange n pin k) s
            ((s.modIn n fun x => { pass (moved x) with retry := true }).bumpTw 0x02 n 9)) ∧
        (fld (s.tw 0x02 n 2) 0 8 = 0 → s.isC0 n = false →
          ∃ u, exec (.wiredInputChange n pin k) s = .next u ∧ u.inp n = pass (moved (s.inp n)) ∧
            (u.src n).q = [({} : Inst)] ∧ (u.src n).st = .pending ∧ u.tw 0x02 n 4 = s.tw 0x02 n 4 + 1 ∧
            u.tw 0x02 n 5 = s.tw 0x02 n 5))) ∧
    (let x := s.inp n
     x.meiOn = true → s.meiOver n = true → fld c 2 2 = 0 →
      ((x.level = false ∨ bit c 0 = false ∨ (s.src n).q ≠ [] ∨ x.retry = true ∨ s.serving = false) →
        Gives (.meiExpiry n) s (s.modIn n fun y => { y with meiOn := false, coal := false })) ∧
      (x.level = true → bit c 0 = true → (s.src n).q = [] → x.retry = false → s.serving = true → fld (s.tw 0x02 n 2) 0 8 = 0 →
        s.isC0 n = false →
          ∃ u, exec (.meiExpiry n) s = .next u ∧ u.inp n = pass x ∧ (u.src n).q = [({} : Inst)] ∧ (u.src n).st = .pending ∧
            u.tw 0x02 n 4 = s.tw 0x02 n 4 + 1)) ∧
    (s.meiOver n = false → Gives (.meiExpiry n) s s)

/-- R48, R49, R50, R58: an intake tick ends `div + 1` cycles after the last; the stuck-active detector counts the ticks an input
stays active and trips at the limit; a refill adds its tokens up to the bucket's depth. R43: the first token lets a refused level-sensed
input try again: it raises when its interval is over, and waits for the interval's end when it is not. -/
def Obligations.TicksAndTokens : Prop :=
  ∀ (s : State) (n : Nat), n < 2048 → s.snt.warmDue = false →
    let x := s.inp n
    let w := s.tw 0x02 n 1
    let t := s.tw 0x02 n 2
    (s.domStill 0 = false → s.tickAt + (fld (s.reg 0x0200) 0 20 + 1) ≤ s.rank →
      ∃ u, exec .intakeTick s = .next u ∧ u.ticks = s.ticks + 1 ∧ u.tickAt = s.tickAt + (fld (s.reg 0x0200) 0 20 + 1)) ∧
    (fld w 0 24 = 0 ∨ x.level = false → s.stuckTick n = s.modIn n fun y => { y with stuckCnt := 0, stuck := false }) ∧
    (x.level = true → x.stuck = false → x.stuckCnt + 1 < fld w 0 24 →
      s.stuckTick n = s.modIn n fun y => { y with stuckCnt := y.stuckCnt + 1 }) ∧
    (x.level = true → x.stuck = false → fld w 0 24 ≠ 0 → fld w 0 24 ≤ x.stuckCnt + 1 →
      (s.stuckTick n).inp n = { x with stuckCnt := fld w 0 24, stuck := true } ∧
      (s.stuckTick n).tw 0x02 n 7 = s.tw 0x02 n 7 + 1 ∧
      (bit ((s.stuckTick n).wcfg n) 0 = true ↔ bit (s.wcfg n) 0 = true ∧ fld w 24 2 ≠ 1 ∧ fld w 24 2 ≠ 2)) ∧
    (x.retry = false → fld t 0 8 ≠ 0 → fld t 16 14 ≠ 0 → x.refillTick + fld t 16 14 ≤ s.ticks →
      Gives (.stormRefill n) s (s.modIn n fun y =>
        { y with tokens := min (fld t 0 8) (y.tokens + fld t 8 8), refillTick := y.refillTick + fld t 16 14 })) ∧
    (x.retry = true → x.tokens = 0 → fld t 0 8 ≠ 0 → fld t 16 14 ≠ 0 → x.refillTick + fld t 16 14 ≤ s.ticks →
      let r := { x with refillTick := x.refillTick + fld t 16 14 }
      (fld t 8 8 = 0 → Gives (.stormRefill n) s (s.modIn n fun _ => r)) ∧
      (fld t 8 8 ≠ 0 → s.meiOver n = false →
        Gives (.stormRefill n) s (s.modIn n fun _ => { r with tokens := min (fld t 0 8) (fld t 8 8), retry := false })) ∧
      (fld t 8 8 ≠ 0 → s.meiOver n = true → fld (s.wcfg n) 2 2 = 0 → bit (s.wcfg n) 0 = true → x.level = true →
        (s.src n).q = [] → s.serving = true → s.isC0 n = false →
          ∃ u, exec (.stormRefill n) s = .next u ∧ (u.src n).q = [({} : Inst)] ∧ (u.src n).st = .pending ∧
            u.inp n = { r with tokens := min (fld t 0 8) (fld t 8 8) - 1, retry := false, meiOn := true, passRank := s.rank,
                               passTick := s.ticks, passLevel := true, coal := false } ∧
            u.tw 0x02 n 4 = s.tw 0x02 n 4 + 1)) ∧
    (fld t 0 8 = 0 ∨ fld t 16 14 = 0 ∨ s.ticks < x.refillTick + fld t 16 14 → Gives (.stormRefill n) s s)

/-- R56: while D_CORE is not On, an enabled wake input, of the 64, that goes active is latched; with the wake source disabled nothing
else happens. R279: with it enabled the latch requests a wake: in a resting block it is counted and shown with the input, and a
transition starts; of the requests of one SLOW_CLK edge the lowest input is shown; while domains are asked it is a refusal with
reason WAKE. A latch that stands, a transition to the other level, and a masked input's change nothing but the pin. R96: the direct path's NOTIFY at a target where none stands takes the Pending Class 0 source with the lowest
prio; an ordinary offer there is replaced and parked. -/
def Obligations.WakeAndDirectPath : Prop :=
  ∀ (s : State) (n t : Nat), s.snt.warmDue = false →
    (∀ pin, n < 64 → s.domOn 0 = false → (s.inp n).pin ≠ pin →
      let b := n % 32
      let lat := if n < 32 then 0x2854 else 0x2858
      let active := pin ≠ bit (s.reg (if n < 32 then 0x2848 else 0x284C)) b
      let moved := s.modIn n fun x => { x with pin := pin }
      let held := (moved.setReg lat (s.reg lat ||| wd (2 ^ b))).modPwr fun p => { p with wakePins := mPut p.wakePins n pin }
      (¬active ∨ bit (s.reg (if n < 32 then 0x2840 else 0x2844)) b = false ∨ bit (s.reg lat) b = true →
        Gives (.wireWakeLatch n pin) s moved) ∧
      (active → bit (s.reg (if n < 32 then 0x2840 else 0x2844)) b = true → bit (s.reg lat) b = false →
        (bit (s.reg 0x2830) 3 = false → Gives (.wireWakeLatch n pin) s held) ∧
        (bit (s.reg 0x2830) 3 = true →
          (s.pwr.trans = none → (∀ q, s.pwr.lastWake = some q → q.at_ ≠ s.slowEdge) →
            ∃ u m, exec (.wireWakeLatch n pin) s = .next u ∧ u.inp n = { s.inp n with pin := pin } ∧
              u.reg lat = s.reg lat ||| wd (2 ^ b) ∧ u.reg 0x2834 = 7 ∧ u.reg 0x2850 = wd (n + 0x100) ∧
              u.reg 0x2868 = s.reg 0x2868 + 1 ∧ u.pwr.trans = some m ∧ m.wake = true ∧ m.ph = .raising) ∧
          (∀ q m k, s.pwr.lastWake = some q → q.at_ = s.slowEdge → s.pwr.trans = some m → m.wake = true → q.src = 3 → q.pin = some k →
            ∃ u, exec (.wireWakeLatch n pin) s = .next u ∧ u.reg lat = s.reg lat ||| wd (2 ^ b) ∧ u.reg 0x2834 = 7 ∧
              u.reg 0x2850 = wd (min k n + 0x100) ∧ u.reg 0x2868 = s.reg 0x2868 ∧ u.pwr.trans = some m) ∧
          (∀ m, s.pwr.trans = some m → m.ph = .asking → s.pwr.warmWait = false → (∀ q, s.pwr.lastWake = some q → q.at_ ≠ s.slowEdge) →
            ∃ u, exec (.wireWakeLatch n pin) s = .next u ∧ u.reg lat = s.reg lat ||| wd (2 ^ b) ∧
              u.reg 0x2820 = wd (5 + 6 * 64 + 0x400) ∧ u.reg 0x2864 = s.reg 0x2864 + 1 ∧
              u.reg 0x2868 = s.reg 0x2868)))) ∧
    (∀ p, t < 512 → s.serving = true → s.domStill 0 = false → s.dstUp t = true → (s.dst t).c0 = none →
      s.c0Next t = some p →
        ∃ u o, exec (.directPathNotify t) s = .next u ∧ (u.dst t).c0 = some o ∧ o.psn = p ∧ o.cls = 0 ∧
          o.prio = (s.src p).key.prio ∧ o.seq = (s.src p).seq ∧ o.conf = some s.rank ∧
          (u.dst t).offer = none ∧ (u.dst t).parked = ((s.dst t).offer).or (s.dst t).parked ∧
          (u.src p).st = .staged ∧ (u.src p).place = .offer ∧ u.tw 0x08 t 3 = s.tw 0x08 t 3 + 1 ∧
          (∀ d, d ≠ t → u.dst d = s.dst d) ∧ (u.dst t).form = none ∧
          ((s.dst t).form = none → ∀ q, q ≠ p → u.src q = s.src q)) ∧
    (∀ p, mWf (fun _ => {}) s.srcs = true → s.c0Next t = some p →
      (s.src p).st = .pending ∧ (s.src p).place = .direct ∧ (s.src p).dst = t ∧
      (∀ q, (s.src q).st = .pending → (s.src q).place = .direct → (s.src q).dst = t →
        (s.src p).key.prio < (s.src q).key.prio ∨ ((s.src p).key.prio = (s.src q).key.prio ∧ p ≤ q)))

/-- R61, R62, R73: a doorbell is presented: lost while D_CORE does not answer; outside, the edge counted, while its port's entry FIFO
is full; else transferred, counted, and it waits in the FIFO by FAB_CLK edge, MSG0 before MSG1 at one edge.

R65, R67, R70, R74: as the edge ends, a doorbell that every stage lets pass, on the steward page or a tenant's: it is counted, and
its message source is raised with its payload and, when it carries one or wants a completion, a payload pool entry; one doorbell
passes stage 5 at an edge. One whose port is off, or whose offset is no doorbell's, is counted and goes.

R61, R75: the head of a port's return queue transfers at an edge with CREADY, and at no other.

The model's choice (log 9; log 112): stages 2 to 9 of a doorbell fall at the RANK_CLK edge at which it is transferred, when none waits
before it; two transfers of one port in an edge are successive FAB_CLK edges. -/
def Obligations.Messages : Prop :=
  (∀ (s : State) (port : Nat) (addr : BitVec 21) (data : W64) (srcid : BitVec 12), port < 2 → s.snt.warmDue = false →
     let b : Bell := { port := port, addr := addr, data := data, srcid := srcid }
     let again := s.edge.ports.contains port = true
     let f := if again then s.fab + 1 else s.fab
     ∀ i ∈ [Instr.doorbell port addr data srcid, .doorbellNp port addr data srcid],
       (s.domStill 0 = true → Gives i s s) ∧
       (s.domStill 0 = false → 16 ≤ s.fifoLen port → Gives i s (s.bump (0x061C + 0x20 * port))) ∧
       (s.domStill 0 = false → s.fifoLen port < 16 →
         let t := s.bump (0x0610 + 0x20 * port)
         Gives i s { t with
           fab := f, edge := { t.edge with ports := port :: if again then [] else s.edge.ports }, fifo := insertBell f b s.fifo })) ∧
  (∀ (t : Nat) (b : Bell) (l : List (Nat × Bell)),
     (insertBell t b l).Perm ((t, b) :: l) ∧
     (l.Pairwise (fun x y => x.1 < y.1 ∨ x.1 = y.1 ∧ x.2.port ≤ y.2.port) →
       (insertBell t b l).Pairwise fun x y => x.1 < y.1 ∨ x.1 = y.1 ∧ x.2.port ≤ y.2.port)) ∧
  (∀ (s : State) (t port m : Nat) (addr : BitVec 21) (data : W64) (srcid : BitVec 12), port < 2 →
     let b : Bell := { port := port, addr := addr, data := data, srcid := srcid }
     let np := decide (addr.toNat % 4096 = 8)
     let page := addr.toNat / 4096
     let vsn := nfld data.toNat 32 15
     let c := s.tw 0x03 m 0
     let send := decide (fld c 5 2 = 2) || (decide (fld c 5 2 ≠ 1) && decide (nfld data.toNat 48 1 = 1))
     let pay := if np then 0 else lo32 data
     let e := { payload := pay, srcid := srcid, port := port, cmp := decide (nfld data.toNat 48 1 = 1), np := np,
                stw := decide (page = 256), cookie := BitVec.ofNat 8 (nfld data.toNat 56 8), send := send,
                quota := if page = 256 then none else some page : PoolEntry }
     s.fifo = [(t, b)] →
       (s.serving = true → bit (s.reg 0x0600) port = true → (addr.toNat % 4096 = 0 ∨ addr.toNat % 4096 = 8) →
         (page = 256 ∧ vsn = m ∧ m < 16384 ∨
           page < 256 ∧ s.tenOn page = true ∧ s.mapSlot page vsn = some (0x0800 + m) ∧ m < 16384 ∧
             s.tenUsed page < fld (s.tw 0x04 page 0) 0 17) →
         bit c 0 = true → (s.src (0x0800 + m)).q.length < s.qdepth m → s.poolUsed < 65536 →
           s.msgWork = ({ s with fifo := [] }.bumpTw 0x03 m 3).raise (0x0800 + m)
             { payload := pay, entry := if np = false ∨ send = true then some e else none }) ∧
       (s.serving = false ∨ bit (s.reg 0x0600) port = false → s.msgWork = { s with fifo := [] }.bump (0x0618 + 0x20 * port)) ∧
       (s.serving = true → bit (s.reg 0x0600) port = true → ¬(addr.toNat % 4096 = 0 ∨ addr.toNat % 4096 = 8) ∨ 256 < page →
         s.msgWork = { s with fifo := [] }.bump (0x0614 + 0x20 * port))) ∧
  (∀ (s : State) (t : Nat) (b : Bell) (rest : List (Nat × Bell)), s.fifo = (t, b) :: rest → (∀ x ∈ s.fifo, x.2.src ≠ none) →
     s.msgWork.fifo = rest) ∧
  (∀ (s : State) (port : Nat) (m : CMsg) (rest : List CMsg), port < 2 → s.snt.warmDue = false → s.domStill 0 = false →
     s.rqOf port = m :: rest →
       (∃ u, exec (.completionMessageTransfer port true) s = .next u ∧ u.rqOf port = rest ∧ u.lastMsg = some (port, m) ∧
         u.reg (0x0620 + 0x20 * port) = s.reg (0x0620 + 0x20 * port) + 1 ∧ (∀ k, k ≠ port → u.rqOf k = s.rqOf k)) ∧
       Gives (.completionMessageTransfer port false) s s)


/-! ## Ranking (05) -/

/-- R79, R81: the order of two entries at a destination whose insertion count is `d`, field by field: class, priority, share,
age with the older first, source number. -/
def Obligations.UrgencyOrder : Prop :=
  ∀ (d : BitVec 24) (a b : Key),
    (moreUrgent d a b = true ↔
      a.cls < b.cls ∨ a.cls = b.cls ∧ (a.prio < b.prio ∨ a.prio = b.prio ∧ (a.share < b.share ∨ a.share = b.share ∧
        (age d b.stamp < age d a.stamp ∨ age d b.stamp = age d a.stamp ∧ a.psn < b.psn)))) ∧
    moreUrgent d a a = false ∧
    (a.psn ≠ b.psn → (moreUrgent d a b = true ↔ moreUrgent d b a = false)) ∧
    (∀ c, moreUrgent d a b = true → moreUrgent d b c = true → moreUrgent d a c = true)

/-- R87, R88: stage 7 places an entry by the first rule that applies: behind a more urgent shelf it goes to the shelf; a heap
with room for its class takes it; a full heap takes one that is more urgent than its least, which goes to the shelf; else the
shelf.

R91, R92: a bank takes one entry at each edge: a Class 1 entry that waits at stage 6 before any other; stage 7 places the entry at
the next edge, to settle four edges after it was taken; a bank that took one at this edge, or with nothing to take, does nothing.

The model's choice: log 13, log 47: the edges at which an entry is placed and settles; RNK_N_INS counts at ENTRY_INSERTION. -/
def Obligations.Insertions : Prop :=
  (∀ (s : State) (d p at_ : Nat),
     let y := s.dst d
     let k := (s.src p).key
     let behind := ∃ b, y.best = some b ∧ moreUrgent y.stamp b k = true
     let full := 64 ≤ y.heap.length ∨ (2 ≤ k.cls ∧ 60 ≤ (y.heap.filter fun r => decide (2 ≤ (s.src r).key.cls)).length)
     let shelved := fun (t : State) (r : Nat) =>
       (t.src r).place = .shelf ∧ (t.dst d).shelf = y.shelf ++ [r] ∧ t.tw 0x05 d 6 = s.tw 0x05 d 6 + 1
     let heaped := fun (t : State) (r : Nat) => (t.src r).place = .heap ∧ (t.src r).settled = at_ ∧ r ∈ (t.dst d).heap
     (behind → shelved (s.place d p at_) p ∧ ((s.place d p at_).dst d).heap = y.heap) ∧
     (¬behind → ¬full → heaped (s.place d p at_) p ∧ ((s.place d p at_).dst d).shelf = y.shelf) ∧
     (∀ q, ¬behind → full → p ∉ y.heap → s.leastUrgent y.stamp y.heap = some q →
       (moreUrgent y.stamp k (s.src q).key = true →
         heaped (s.place d p at_) p ∧ shelved (s.place d p at_) q ∧ q ∉ ((s.place d p at_).dst d).heap) ∧
       (moreUrgent y.stamp k (s.src q).key = false → shelved (s.place d p at_) p ∧ ((s.place d p at_).dst d).heap = y.heap))) ∧
  (∀ (s : State) (b p : Nat), b < 32 → s.domStill 0 = false → s.snt.warmDue = false →
     let x := s.src p
     let y := s.dst x.dst
     ((s.bank b).slotAt = some s.rank ∨ s.chooseSlot b = none → Gives (.entryInsertion b) s s) ∧
     (x.st = .pending → x.place = .wait6 → bankOf x.dst = b → x.key.cls = 1 → mWf (fun _ => {}) s.srcs = true →
       ∃ q, s.chooseSlot b = some q ∧ (s.src q).key.cls = 1 ∧ (s.src q).place = .wait6 ∧ (s.src q).pendAt ≤ x.pendAt) ∧
     ((s.bank b).slotAt ≠ some s.rank → s.chooseSlot b = some p →
       ∃ u, exec (.entryInsertion b) s = .next u ∧ (u.bank b).slotAt = some s.rank ∧ (u.bank b).swept = (s.bank b).swept ∧
         u.src p = { x with place := .slotted (decide (x.place = .unshelve)), slot := s.rank } ∧
         u.tw 0x05 x.dst 5 = s.tw 0x05 x.dst 5 + 1 ∧
         (∀ k, k ≠ b → u.bank k = s.bank k) ∧ (∀ r, r ≠ p → u.src r = s.src r) ∧ u.dsts = s.dsts) ∧
     (y.best = none → y.heap.length < 60 →
       ((s.stage7 p).src p).place = .heap ∧ ((s.stage7 p).src p).settled = x.slot + 4 ∧ ((s.stage7 p).src p).key = x.key ∧
         ((s.stage7 p).dst x.dst).heap = y.heap ++ [p] ∧ ((s.stage7 p).dst x.dst).offer = y.offer ∧
         (∀ r, r ≠ p → (s.stage7 p).src r = s.src r) ∧ (∀ d, d ≠ x.dst → (s.stage7 p).dst d = s.dst d)))

/-- R84: a usage decay halves every usage level, once in each period. R83, R89: a sweeper's visit to the destination whose turn it is,
once its scan's time is over, clears its mark, leaves the shelf's most urgent key as the shelf-best, and while the heap is low takes
shelf entries for re-insertion; a destination whose turn it is is marked, or has a low heap and a shelf entry; a visit out of turn
clamps the ages and no more, and one of another bank's destination does nothing.

The model's choice: log 50, log 94: a visit acts once as many edges have passed as the shelf has entries; a visit out of turn only
clamps. -/
def Obligations.DecayAndSweep : Prop :=
  ∀ (s : State) (b d p : Nat), s.domStill 0 = false → s.snt.warmDue = false →
    (s.decayAt + 2 ^ s.dexp ≤ s.rank → mWf (fun _ => 0) s.usage = true →
      ∃ u, exec .usageDecay s = .next u ∧ (∀ v c, u.u v c = s.u v c / 2) ∧ u.decayAt = s.decayAt + 2 ^ s.dexp ∧
        ∃ m, Beside { s with usage := m, decayAt := s.decayAt + 2 ^ s.dexp } u) ∧
    (s.rank < s.decayAt + 2 ^ s.dexp → Gives .usageDecay s s) ∧
    (s.nextSweep b = some d → bankOf d = b → (s.dst d).mark = true ∨ (s.dst d).shelf ≠ [] ∧ (s.dst d).heap.length < s.swpLo) ∧
    (d < 576 → bankOf d = b → s.nextSweep b = some d → (s.bank b).sweptAt + (s.dst d).shelf.length ≤ s.rank →
      (s.swpLo ≤ (s.dst d).heap.length →
        ∃ u, exec (.sweeperVisit b d) s = .next u ∧ (u.dst d).shelf = (s.dst d).shelf ∧ (u.dst d).heap = (s.dst d).heap ∧
          (u.dst d).mark = false ∧ ((s.dst d).shelf = [] → (u.dst d).best = none) ∧ (u.bank b).swept = d ∧
          (u.bank b).sweptAt = s.rank) ∧
      ((s.dst d).heap.length < s.swpLo → (s.dst d).shelf = [p] →
        ∃ u, exec (.sweeperVisit b d) s = .next u ∧ (u.dst d).shelf = [] ∧ (u.dst d).best = none ∧
          (u.src p).place = .unshelve ∧ (u.src p).since = s.rank ∧ (u.dst d).mark = false ∧ (u.bank b).swept = d)) ∧
    (d < 576 → bankOf d = b → s.nextSweep b ≠ some d → (s.bank b).sweptAt + (s.dst d).shelf.length ≤ s.rank →
      Gives (.sweeperVisit b d) s (s.clampAges d)) ∧
    (bankOf d ≠ b ∨ s.rank < (s.bank b).sweptAt + (s.dst d).shelf.length → Gives (.sweeperVisit b d) s s)

/-! ## Dispatch (06) -/

/-- R91, R93, R110, R112: stage 10 takes a destination's head off its heap where no offer stands and the destination may take it, and
the offer is shown three edges later with spec = 1 and what the delivery checker finds; an entry held over a Class 0 NOTIFY goes
through stage 12 again from the cycle after the CLAIM on, at the next edge and with its confirm window restarted, unless a more urgent
head beats it: that head is then taken, for two edges later, and the held entry goes back.

R95: the checker passes an entry whose source is Pending at that destination with the class and priority of its key.

The model's choice: log 95, log 49: the order in which the reasons of a failed check are judged; a held entry shown again is not checked
anew. -/
def Obligations.SpeculativeOffers : Prop :=
  ∀ (s : State) (d p : Nat), d < 576 → p < 0x5A40 → s.snt.warmDue = false →
    ((s.dst d).form = none → (s.dst d).offer = none → (s.dst d).c0 = none →
      ((s.dst d).parked = none → s.head d s.rank = some p → s.offerOk d (s.src p).key = true → (s.src p).st = .pending →
        ((s.stage10 d).dst d).form = some (p, s.rank + 3) ∧
        ((s.stage10 d).dst d).heap = (s.dst d).heap.filter (· ≠ p) ∧ ((s.stage10 d).dst d).offer = none ∧
        ((s.stage10 d).src p).place = .popped ∧ ((s.stage10 d).src p).st = .pending ∧
        ((s.stage10 d).src p).key = (s.src p).key ∧
        (∀ r, r ≠ p → (s.stage10 d).src r = s.src r) ∧ (∀ k, k ≠ d → (s.stage10 d).dst k = s.dst k)) ∧
      ((s.dst d).parked = none → s.head d s.rank = none → s.stage10 d = s) ∧
      (∀ o, (s.dst d).parked = some o → o.psn < 0x5A40 → s.offerOk d (s.src o.psn).key = true → (s.dst d).claimAt.getD 0 < s.rank →
        ((∀ q, s.head d s.rank = some q → moreUrgent (s.dst d).stamp (s.src q).key (s.src o.psn).key = false) →
          s.stage10 d = s.modDst d fun y => { y with form := some (o.psn, s.rank + 1) }) ∧
        (∀ q, s.head d s.rank = some q → moreUrgent (s.dst d).stamp (s.src q).key (s.src o.psn).key = true →
          (s.dst d).heap.length < 128 → (s.src o.psn).dst = d → (s.src q).st = .pending → q ≠ o.psn →
          ((s.stage10 d).dst d).form = some (q, s.rank + 2) ∧ ((s.stage10 d).dst d).parked = none ∧
          ((s.stage10 d).src o.psn).st = .pending))) ∧
    ((s.dst d).form = none → Gives (.speculativeOffer d) s s) ∧
    (∀ ready, (s.dst d).form = some (p, ready) → s.domStill 0 = false → s.serving = true →
      (s.rank < ready → Gives (.speculativeOffer d) s s) ∧
      (ready ≤ s.rank → (s.dst d).parked = none → (s.src p).st = .pending → (s.src p).dst = d →
        ∃ u, exec (.speculativeOffer d) s = .next u ∧
          (u.dst d).offer = some { psn := p, cls := (s.src p).key.cls, prio := (s.src p).key.prio, vtag := s.sidVtag p,
                                   tenant := s.sidTenant p, seq := (s.src p).seq, replay := (s.src p).replay, start := s.rank,
                                   chk := s.checkOf d p } ∧
          ((s.src p).key.cls = s.heapCls p → (s.src p).key.prio = s.prio p → s.checkOf d p = 0) ∧
          (u.dst d).form = none ∧ (u.dst d).heap = (s.dst d).heap ∧ (u.src p).st = .staged ∧ (u.src p).place = .offer ∧
          (u.src p).key = (s.src p).key ∧ u.tw 0x08 d 3 = s.tw 0x08 d 3 + 1 ∧ u.tw 0x01 p 6 = s.tw 0x01 p 6 + 1 ∧
          (∀ r, r ≠ p → u.src r = s.src r) ∧ (∀ k, k ≠ d → u.dst k = s.dst k)) ∧
      (ready ≤ s.rank → ∀ o, (s.dst d).parked = some o → o.psn = p →
        ∃ u, exec (.speculativeOffer d) s = .next u ∧
          (u.dst d).offer = some { o with start := s.rank, conf := none, beaten := false } ∧
          (u.dst d).parked = none ∧ (u.dst d).form = none ∧ u.srcs = s.srcs))

/-- R94, R95: at edge 3 an offer is compared with the head of its destination; at edge 6 one that passed its checks and that the
comparison did not find beaten is confirmed and its claim timer starts; a beaten one ends by RETRACT and its entry is reinstated.

The model's choice: log 96: a beaten offer ends by RETRACT at the row that ends its window; log 118: a limit of 0 at CONFIRM starts no
timer. -/
def Obligations.ConfirmWindow : Prop :=
  ∀ (s : State) (d : Nat) (o : Offer), d < 576 → (s.dst d).offer = some o → o.conf = none → s.snt.warmDue = false →
    (o.start + 3 = s.rank →
      (s.finalCompare.dst d).offer = some { o with beaten := s.isBeaten d o } ∧
      (s.isBeaten d o = true ↔ ∃ q, s.head d (o.start + 3) = some q ∧
        moreUrgent (s.dst d).stamp (s.src q).key (s.src o.psn).key = true)) ∧
    (o.start + 6 ≤ s.rank → o.chk = 0 → o.beaten = false →
      Gives (.confirmWindowEnd d .clean) s (s.modDst d fun x =>
        { x with offer := some { o with conf := some s.rank },
                 timer := if fld (s.tcfg d) 8 12 = 0 then none else some s.rank })) ∧
    (o.start + 6 ≤ s.rank → o.chk = 0 → o.beaten = true → o.psn < 0x5A40 →
      ∃ u, exec (.confirmWindowEnd d .clean) s = .next u ∧ (u.dst d).offer = none ∧ (u.dst d).timer = none ∧
        (u.src o.psn).st = .pending ∧ u.reg 0x0814 = s.reg 0x0814 + 1 ∧ u.tw 0x08 d 6 = s.tw 0x08 d 6 + 1 ∧
        u.tw 0x01 o.psn 7 = s.tw 0x01 o.psn 7 + 1) ∧
    (s.rank < o.start + 6 → Gives (.confirmWindowEnd d .clean) s s)

/-- R101, R105, R107, R113: a CLAIM of a confirmed offer makes its instance Active and innermost at the target; one of an offer
not yet confirmed is a protocol error; a COMPLETE with the innermost instance's number ends it there, and the next outer is
innermost. Of a CLAIM and a COMPLETE of one cycle the completion goes first: it ends the instance under the claimed one.

R101, R102, R332: once an instance's completion work is done and it holds no write, its source leaves Completing: it goes
Idle, or its next instance goes Pending. The delivered and lifetime counts advance. R43: a level-sensed input that holds no more
instance raises its next at that moment, when its filtered level is active and its interval is over. -/
def Obligations.ClaimsAndCompletions : Prop :=
  (∀ (s : State) (t : Nat), t < 512 → s.dstUp t = true → s.domStill 0 = false → s.snt.warmDue = false →
     (∀ o c, (s.dst t).c0 = none → (s.dst t).offer = some o → o.conf = some c → o.psn ∉ (s.dst t).nest →
       ∃ u, exec (.claim t) s = .next u ∧ (u.dst t).offer = none ∧ (u.dst t).timer = none ∧
         (u.dst t).nest = o.psn :: (s.dst t).nest ∧ (u.src o.psn).st = .active ∧ (u.src o.psn).inner = true ∧
         (u.src o.psn).outer = (s.dst t).nest.head? ∧ (u.src o.psn).seq = (s.src o.psn).seq ∧
         (u.src o.psn).q = (s.src o.psn).q ∧ (∀ q, (s.dst t).nest.head? = some q → (u.src q).inner = false) ∧
         u.tw 0x08 t 4 = s.tw 0x08 t 4 + 1) ∧
     (∀ o, (s.dst t).c0 = some o → o.start < s.rank → (s.src o.psn).doom = false → o.psn ∉ (s.dst t).nest →
       ∃ u, exec (.claim t) s = .next u ∧ (u.dst t).c0 = none ∧ (u.dst t).parked = (s.dst t).parked ∧
         (u.dst t).nest = o.psn :: (s.dst t).nest ∧ (u.src o.psn).st = .active ∧ u.tw 0x08 t 4 = s.tw 0x08 t 4 + 1) ∧
     (∀ o, (s.dst t).c0 = none → (s.dst t).offer = some o → o.conf = none →
       Gives (.claim t) s ((s.bumpTw 0x08 t 8).setReg 0x0C20 (wd (t + 2 * 1024 + 0x10000)))) ∧
     (∀ p rest, (s.dst t).claimAt ≠ some s.rank → (s.dst t).nest = p :: rest → (p :: rest).Nodup → (s.src p).kept = false →
       ∃ u, exec (.complete t (s.src p).seq) s = .next u ∧ (u.dst t).nest = rest ∧ (u.src p).st = .completing ∧
         (u.src p).since = s.rank ∧ (u.src p).inner = false ∧ (u.src p).q = (s.src p).q ∧
         (∀ q, rest.head? = some q → (u.src q).inner = true) ∧ u.tw 0x08 t 5 = s.tw 0x08 t 5 + 1 ∧
         (∀ k, k ≠ t → u.dst k = s.dst k)) ∧
     (∀ p q rest, (s.dst t).claimAt = some s.rank → (s.dst t).nest = p :: q :: rest → p ≠ q → (s.src q).kept = false →
       ∃ u, exec (.complete t (s.src q).seq) s = .next u ∧ (u.dst t).nest = p :: rest ∧ (u.src q).st = .completing ∧
         (u.src p).st = (s.src p).st ∧ (u.src p).inner = (s.src p).inner ∧ (u.src p).outer = (s.src q).outer ∧
         u.tw 0x08 t 5 = s.tw 0x08 t 5 + 1)) ∧
  (∀ (s : State) (p : Nat) (i : Inst) (rest : List Inst),
     p < 0x5A40 → s.domStill 0 = false → s.snt.warmDue = false → (s.src p).st = .completing → (s.src p).kept = false →
     (s.src p).q = i :: rest → s.instHeld i = 0 →
     (s.rank < (s.src p).since + 2 → Gives (.completionWorkDone p) s s) ∧
     (p < 0x0800 → rest = [] → (s.src p).since + 2 ≤ s.rank → (s.src p).flushed = false → i.occ = none →
         fld (s.wcfg p) 2 2 = 0 → bit (s.wcfg p) 0 = true → (s.inp p).level = true → s.meiOver p = true →
         (s.inp p).retry = false → s.serving = true → fld (s.tw 0x02 p 2) 0 8 = 0 → s.isC0 p = false →
       ∃ u, exec (.completionWorkDone p) s = .next u ∧ (u.src p).st = .pending ∧ (u.src p).q = [({} : Inst)] ∧
         (u.src p).place = .pipe ∧ (u.inp p).passRank = s.rank ∧ u.tw 0x02 p 4 = s.tw 0x02 p 4 + 1 ∧
         u.tw 0x01 p 8 = s.tw 0x01 p 8 + 1 ∧ u.tw64 0x19 p 0 = s.tw64 0x19 p 0 + 1) ∧
     ((s.src p).since + 2 ≤ s.rank → (s.src p).flushed = false →
         (0x0800 ≤ p ∨ rest ≠ [] ∨ fld (s.wcfg p) 2 2 ≠ 0 ∨ (s.inp p).level = false) →
       ∃ u, exec (.completionWorkDone p) s = .next u ∧ (u.src p).q = rest ∧
         (rest = [] → (u.src p).st = .idle) ∧ (rest ≠ [] → (u.src p).st = .pending ∧ (u.src p).q = rest ∧ (s.isC0 p = false → (u.src p).place = .pipe)) ∧
         u.tw 0x01 p 8 = s.tw 0x01 p 8 + 1 ∧ u.tw64 0x19 p 0 = s.tw64 0x19 p 0 + 1 ∧ (∀ r, r ≠ p → u.src r = s.src r)))

/-- R114: a claim timer that runs out, unless the limit is 0, ends the offer by RETRACT, counts, and enters its target's recovery ladder. R115: TGT_UP
rising makes the target up; falling withdraws its offers and, with dpol = 0, its Active instances complete. -/
def Obligations.TimersAndTargets : Prop :=
  ∀ (s : State) (t : Nat), t < 512 → s.snt.warmDue = false →
    (∀ o t0, (s.dst t).timer = some t0 → fld (s.tcfg t) 8 12 ≠ 0 → t0 + 64 * fld (s.tcfg t) 8 12 ≤ s.rank → (s.dst t).c0 = none →
        (s.dst t).offer = some o → s.reselectTo o.psn t = none → o.psn < 0x5A00 →
        (s.func (4640 + t)).tmr = none → (s.func (4640 + t)).busy = false → (s.func (4640 + t)).retired = false →
      ∃ u, exec (.claimTimerExpiry t) s = .next u ∧ (u.dst t).offer = none ∧ (u.dst t).timer = none ∧
        (u.src o.psn).st = .pending ∧ u.tw 0x08 t 6 = s.tw 0x08 t 6 + 1 ∧ u.tw 0x08 t 7 = s.tw 0x08 t 7 + 1 ∧
        u.reg 0x3070 = s.reg 0x3070 + 1 ∧ (u.func (4640 + t)).step = 1) ∧
    (∀ t0, (s.dst t).timer = some t0 → (fld (s.tcfg t) 8 12 = 0 ∨ s.rank < t0 + 64 * fld (s.tcfg t) 8 12) →
      Gives (.claimTimerExpiry t) s s) ∧
    Gives (.targetUp t) s (s.modDst t fun x => { x with upPin := true }) ∧
    (s.dstUp t = false → Gives (.targetDown t) s (s.modDst t fun x => { x with upPin := false })) ∧
    (∀ p, s.dstUp t = true → s.domOn 0 = true → (s.dst t).nest = [p] → (s.dst t).offer = none → (s.dst t).parked = none →
        (s.dst t).c0 = none → bit (s.tcfg t) 2 = false → (s.src p).st = .active → p < 0x5A40 →
      ∃ u, exec (.targetDown t) s = .next u ∧ u.dstUp t = false ∧ (u.dst t).nest = [] ∧ (u.src p).st = .completing ∧
        (u.src p).flushed = true ∧ u.tw 0x01 p 9 = s.tw 0x01 p 9 + 1)


/-! ## Engines (09) -/

/-- R116, R175, R176, R177: an idle member takes its pool's confirmed offer: the offer is claimed, the instance Active, and the
engine loads the binding's reflex, the delivery frame's first words and the preloaded slot words.

R175: the engine a pool takes with is an idle member, by the membership before the edge's changes; with rr = 0 the lowest-numbered
one.

The model's choice: log 51: the take, the claim and the load fall at the edge of the row. -/
def Obligations.EnginesTakeOffers : Prop :=
  (∀ (s : State) (p psn e : Nat), p < 64 → s.domStill 0 = false → s.takeable p = some psn → s.taker p = some e → psn < 0x5A40 →
     s.snt.warmDue = false →
     let b := s.tw 0x0E psn 0
     let d := fld b 0 12
     let w0 := s.tw 0x0D d 0
     let w2 := s.tw 0x0D d 2
     let i : Inst := (s.src psn).q.headD {}
     ∃ u, exec (.engineTake p) s = .next u ∧ (u.dst (512 + p)).offer = none ∧
       (u.dst (512 + p)).nest = psn :: (s.dst (512 + p)).nest ∧ (u.src psn).st = .active ∧
       (u.eng e).st = .load ∧ (u.eng e).psn = some psn ∧ (u.eng e).occ = i.occ ∧ (u.eng e).takeAt = s.eng2 ∧ (u.eng e).pool = p ∧
       (u.eng e).pc = fld w0 0 16 ∧ (u.eng e).entry = fld w0 0 16 ∧ (u.eng e).len = fld w0 16 13 ∧
       (u.eng e).budget = fld (s.tw 0x0D d 1) 0 10 ∧ (u.eng e).dsig = s.tw 0x0D d 3 ∧ (u.eng e).sig = 0 ∧ (u.eng e).acc = 0 ∧
       (u.eng e).sat = false ∧ (u.eng e).slot = fld w2 0 9 ∧
       u.wreg e 0 = (if isMsg psn || isEng psn then i.payload else 0) ∧ u.wreg e 1 = s.tw 0x01 psn 4 &&& 0x00FF7FFF ∧
       (∀ j : BitVec 5, bit w2 9 = true → j.toNat < min 8 (fld w2 10 4) →
         u.wreg e (8 + j) = s.tw 0x10 (16 * fld w2 0 9) j.toNat) ∧
       (∀ k, k ≠ e → u.eng k = s.eng k) ∧ u.tw 0x0B e 3 = s.tw 0x0B e 3 + 1 ∧ u.tw 0x0C p 2 = s.tw 0x0C p 2 + 1) ∧
  (∀ (s : State) (p e : Nat), s.taker p = some e →
     e < 512 ∧ s.memberBefore e p = true ∧ s.idleEng e = true ∧ ((s.eng e).doneAt = 0 ∨ (s.eng e).doneAt < s.eng2) ∧
     (∀ k, mFind s.edge.ecfg k = none → s.memberBefore k p = s.member k p) ∧
     (bit (s.tw 0x0C p 0) 0 = false → ∀ k, k < e → s.memberBefore k p = true → s.idleEng k = true → s.eng2 ≤ (s.eng k).doneAt))

/-- R177: at its first instruction edge, 4 ENG_CLK after the take, an engine with a valid binding is in Run. R181, R184: a
spent budget ends the reflex by a fault, counted and shown, with its completion presented at the next edge; when the count comes to the
budget at the very edge at which END, the last word of the reflex, issues, there is no fault. -/
def Obligations.EngineRuns : Prop :=
  ∀ (s : State) (e : Nat), e < 512 → s.domStill (8 + e / 16) = false → s.snt.warmDue = false →
    let atEnd := s.issuing e = true ∧ s.cycles e = (s.eng e).budget ∧ s.fetched e = 0xFC000000 ∧
      (s.eng e).pc = (s.eng e).entry + (s.eng e).len - 1
    ((s.eng e).st = .load → (s.eng e).bindOk = true → (s.eng e).takeAt + 4 ≤ s.eng2 →
      Gives (.firstInstruction e .ok) s (s.modEng e fun x => { x with st := .run, startAt := s.eng2, readyAt := s.eng2 })) ∧
    ((s.eng e).st = .load → s.eng2 < (s.eng e).takeAt + 4 → Gives (.firstInstruction e .ok) s s) ∧
    ((s.eng e).st = .run → s.cycles e < (s.eng e).budget → Gives (.budget e) s s) ∧
    (atEnd → Gives (.budget e) s s) ∧
    ((s.eng e).st = .run → (s.eng e).budget ≤ s.cycles e → ¬atEnd → (s.eng e).occ = none → s.seqsOf e = [] → (s.eng e).stall = .none →
        (s.func e).tmr = none → (s.func e).busy = false → (s.func e).retired = false →
      ∃ u, exec (.budget e) s = .next u ∧ (u.eng e).st = .done ∧ (u.eng e).flt = some 1 ∧ (u.eng e).doneAt = s.eng2 + 1 ∧
        (u.eng e).lastFlt = 1 ∧ u.tw 0x0B e 4 = s.tw 0x0B e 4 + 1 ∧ u.reg 0x180C = s.reg 0x180C + 1 ∧
        u.reg 0x1808 = wd (e + 512 + 0x10000) ∧ u.reg 0x306C = s.reg 0x306C + 1 ∧ (u.func e).step = 1)

/-- R185: a cluster's collector accepts one completion at an ENG_CLK edge: the engine rests, and 1 ENG_CLK later the instance is
Completing, FLUSHED after a fault; each cycle a presented completion has waited counts. R174, R297: a self-test of an engine that is
idle for 64 cycles and whose turn it is, its end when it passes, and the interval's count, once in 20 ms at nominal clocks.

The model's choice: log 60: 20 ms are 64,000,000 cycles; log 104: the rotation takes the next idle engine in ascending order; log 51:
the edge at which the instance is Completing. -/
def Obligations.CompletionsAndTests : Prop :=
  ∀ (s : State) (c e : Nat), s.snt.warmDue = false →
    (∀ p, c < 32 → (s.cluster c).accAt ≠ some s.eng2 → s.nextAccept c = some e → (s.eng e).psn = some p → (s.eng e).recov = 0 →
      ∃ u, exec (.completionAccept c) s = .next u ∧ (u.cluster c).accAt = some s.eng2 ∧ (u.cluster c).lastAcc = e % 16 + 1 ∧
        u.src p = { s.src p with endAt := some (2 * s.eng2 + 2, (s.eng e).flt.isSome) } ∧
        (u.eng e).st = (if (s.eng e).flt.isSome then .fault else if bit (s.tw 0x0B e 0) 0 then .idle else .stopped) ∧
        (u.eng e).psn = none ∧ (u.eng e).idleAt = s.eng2 ∧ (∀ k, k ≠ e → u.eng k = s.eng k) ∧ (∀ q, q ≠ p → u.src q = s.src q)) ∧
    ((s.cluster c).accAt = some s.eng2 → Gives (.completionAccept c) s s) ∧
    (∀ e, s.nextAccept c = some e → e / 16 = c ∧ (s.eng e).st = .done ∧ (s.eng e).doneAt ≤ s.eng2) ∧
    (∀ p f, (s.src p).kept = false →
      let u := s.endActive p f
      (u.src p).st = .completing ∧ (u.src p).since = s.rank ∧ (u.src p).flushed = f ∧ (u.src p).endAt = none ∧
        u.tw 0x08 (s.src p).dst 5 = s.tw 0x08 (s.src p).dst 5 + 1 ∧
        (u.dst (s.src p).dst).nest = (s.dst (s.src p).dst).nest.filter (· ≠ p)) ∧
    (mWf (fun _ => {}) s.engs = true → (s.eng e).st = .done → (s.eng e).doneAt < s.eng2 →
      s.countCwait.tw 0x0B e 5 = s.tw 0x0B e 5 + 1) ∧
    (e < 512 → (s.eng e).st = .idle → (s.eng e).idleAt + 64 ≤ s.eng2 → s.snt.testEng = none → s.domStill (8 + e / 16) = false →
        (s.eng e).recov = 0 → (∀ i < (e + 512 - s.snt.testNext) % 512, s.testable ((s.snt.testNext + i) % 512) = false) →
      ∃ u, exec (.selfTest e) s = .next u ∧ (u.eng e).st = .test ∧ (u.eng e).testAt = s.eng2 ∧ u.snt.testEng = some e ∧
        u.snt.testNext = (e + 1) % 512) ∧
    (e < 512 → (s.eng e).st = .test → (s.eng e).testAt + 512 ≤ s.eng2 →
      ∃ u, exec (.selfTestEnd e true) s = .next u ∧ (u.eng e).tested = true ∧ u.snt.testEng = none ∧
        (u.eng e).st = if bit (s.tw 0x0B e 0) 0 then .idle else .stopped) ∧
    (s.snt.testFrom + 64000000 ≤ s.rank →
      ∃ u, exec .selfTestInterval s = .next u ∧ (∀ k, (u.eng k).tested = false) ∧ u.snt.testFrom = s.rank ∧
        u.reg 0x30B0 = s.reg 0x30B0 + wd ((List.range 512).filter fun k => !(s.eng k).tested).length) ∧
    (s.rank < s.snt.testFrom + 64000000 → Gives .selfTestInterval s s)

/-! ## The outbound port, the arbiter and the locks (11) -/

/-- R211, R222, R224: a write transfers at an edge with OUT_READY, once in an ENG_CLK cycle: a plain write leaves its queue; a
burst's next staged write; its last ends the sequence COMMITTED and frees its lock. Without OUT_READY the edge counts as
a stall. The Sentinel's safe writes leave in their order.

R215, R216: with no holder, no preempted requester and no emergency, a unit of the outbound arbiter grants the requester whose
request was raised before it and that is ahead of every other: weight before none, then credit, then number. R214: a window's
end adds each weight to its credit, up to the weight, and takes the weights of the new window.

R213, R215: the same at an SRAM bank, whose requesters are those the decision names (the model's choice, log 11) and those that still
wait; a background requester drops its request after 16 accesses, and makes none in a unit the real-time lane takes, which it does in at
most 3 of 4. R213, R246: the same at the NVM port, in units of 64 ENG_CLK, once in a unit: the grant begins the transaction.

The model's choice: log 11: when an SRAM request is raised. -/
def Obligations.OutboundPort : Prop :=
  (∀ (s : State) (h : Nat), s.outValid = true → s.outAt ≠ some s.eng2 → (s.arb 0).holder = some h → s.snt.warmDue = false →
     let c := s.cluster h
     (∀ e a d rest, h < 32 → c.queue = .plain e a d :: rest → c.stalled = [] →
       ∃ u, exec (.outboundTransfer true false) s = .next u ∧
         u.outLast = some { addr := a, data := d, req := h, burst := false, last := false } ∧
         u.cluster h = { c with queue := rest } ∧ u.reg 0x1C20 = s.reg 0x1C20 + 1 ∧ u.outAt = some s.eng2 ∧ u.stallRun = 0 ∧
         (∀ k, k ≠ h → u.cluster k = s.cluster k)) ∧
     (∀ id q n w rest, h < 32 → c.queue = .marker id :: rest → s.lseq id = some q → q.id = id → q.ph = .burst n →
         q.writes[n]? = some w → n + 1 < q.writes.length →
       ∃ u, exec (.outboundTransfer true false) s = .next u ∧
         u.outLast = some { addr := w.1, data := w.2, req := h, burst := true, last := false } ∧
         u.lseq id = some { q with ph := .burst (n + 1) } ∧ u.cluster h = c ∧ u.reg 0x1C20 = s.reg 0x1C20 + 1) ∧
     (∀ id q n w l rest, h < 32 → c.queue = .marker id :: rest → c.stalled = [] → s.lseq id = some q → q.id = id →
         q.ph = .burst n → q.writes[n]? = some w → q.writes.length = n + 1 → q.locks = [l] → (s.lock l).waiters = [] →
       ∃ u, exec (.outboundTransfer true false) s = .next u ∧
         u.outLast = some { addr := w.1, data := w.2, req := h, burst := true, last := true } ∧ u.lseq id = none ∧
         (u.lock l).owner = none ∧ (u.lock l).last = 1 ∧ u.cluster h = { c with queue := rest }) ∧
     ((h < 32 ∨ s.stallRun + 1 < 16) → Gives (.outboundTransfer false false) s { s.bump 0x1C28 with outAt := some s.eng2, stallRun := s.stallRun + 1 }) ∧
     (∀ w rest, h = 32 → s.safeQ = w :: rest → w.seq = none →
       ∃ u, exec (.outboundTransfer true false) s = .next u ∧ u.safeQ = rest ∧
         u.outLast = some { addr := w.addr, data := w.data, req := 32, burst := true, last := w.last })) ∧
  (∀ (s : State) (r : Nat) (wants : Sys2Proof.BankWants), r < 32 → s.snt.warmDue = false →
     let w := fun (q : Nat) => min (fld (s.tw 0x13 q 0) 0 16) 256
     (s.domStill 0 = false → (s.arb 0).next ≤ s.eng2 → (s.arb 0).holder = none → (s.arb 0).preempted = none → s.safeQ = [] →
         s.seenAt 0 r s.eng2 = true → (∀ q, q < 32 → q ≠ r → s.seenAt 0 q s.eng2 = true → s.aheadOf 0 r q = true) →
       ∃ u, exec (.grantDecision .outbound wants) s = .next u ∧ (u.arb 0).holder = some r ∧ (u.arb 0).since = s.eng2 + 1 ∧
         (u.arb 0).next = s.eng2 + 1 ∧ u.tw 0x13 r 2 = s.tw 0x13 r 2 + 1 ∧ u.clusters = s.clusters) ∧
     (∀ q, s.aheadOf 0 r q = true ↔
       (s.weight 0 r ≠ 0 ∧ s.weight 0 q = 0) ∨ ((s.weight 0 r = 0 ↔ s.weight 0 q = 0) ∧
         (s.credit 0 q < s.credit 0 r ∨ (s.credit 0 r = s.credit 0 q ∧ r < q)))) ∧
     ((s.arb 0).boundary + 256 ≤ s.eng2 →
       ∃ u, exec (.windowBoundary .outbound) s = .next u ∧ (u.arb 0).boundary = (s.arb 0).boundary + 256 ∧
         u.credit 0 r = min (s.credit 0 r + (w r : Int)) (w r : Int) ∧ u.weight 0 r = w r ∧
         (u.arb 0).holder = (s.arb 0).holder) ∧
     (s.eng2 < (s.arb 0).boundary + 256 → Gives (.windowBoundary .outbound) s s)) ∧
  (∀ (s : State) (b r : Nat) (wants : Sys2Proof.BankWants), b < 48 → r < 7 → s.domStill 0 = false → s.snt.warmDue = false →
     let a := s.arb (b + 1)
     let t := s.eng2
     let asks := fun (q : Nat) => q < 7 ∧ q ∉ a.masked ∧
       ((∃ x ∈ mFind a.wait q, x.1 < t) ∨ mFind a.wait q = none ∧ q ∈ wants.reqs)
     let held := t + 1 - max a.since a.next
     let taken := wants.lane = true ∧ ¬(3 ≤ t ∧ t - 1 ∈ a.lane ∧ t - 2 ∈ a.lane ∧ t - 3 ∈ a.lane)
     (0 < t → a.next ≤ t → a.holder = none → a.preempted = none → 7 ∉ wants.reqs → mFind a.wait 7 = none → asks r →
         (∀ q, q < 7 → asks q → q ≠ r → s.aheadOf (b + 1) r q = true) →
       ∃ u, exec (.grantDecision (.sram b) wants) s = .next u ∧ (u.arb (b + 1)).holder = some r ∧
         (u.arb (b + 1)).since = t + 1 ∧ (u.arb (b + 1)).next = t + 1 ∧ (u.arb (b + 1)).acc = 0 ∧
         u.tw 0x13 (64 + r) 2 = s.tw 0x13 (64 + r) 2 + 1) ∧
     (a.next ≤ t → a.holder = some r → a.preempted = none → a.wait = [] → wants.reqs = [r] → r ∉ a.masked → wants.lane = false →
       ∃ u, exec (.grantDecision (.sram b) wants) s = .next u ∧ (u.arb (b + 1)).acc = a.acc + held ∧
         u.credit (b + 1) r = max (-32768) (s.credit (b + 1) r - (held : Int)) ∧
         (u.arb (b + 1)).holder = if a.acc + held < 16 then some r else none) ∧
     (a.next = t → a.since ≤ t → a.holder = some r →
       ∃ u, exec (.grantDecision (.sram b) wants) s = .next u ∧
         (taken → t ∈ (u.arb (b + 1)).lane ∧ (a.acc < 16 → a.preempted = none → wants.reqs = [r] → a.wait = [] → r ∉ a.masked →
           (u.arb (b + 1)).holder = some r ∧ (u.arb (b + 1)).acc = a.acc)) ∧
         (¬taken → t ∉ a.lane → t ∉ (u.arb (b + 1)).lane)) ∧
     (t < a.next → Gives (.grantDecision (.sram b) wants) s s) ∧
     (a.boundary + 1024 ≤ t →
       ∃ u, exec (.windowBoundary (.sram b)) s = .next u ∧ (u.arb (b + 1)).boundary = a.boundary + 1024 ∧
         (let w := min (fld (s.tw 0x13 (64 + r) 0) 0 16) 1024
          u.credit (b + 1) r = min (s.credit (b + 1) r + (w : Int)) (w : Int) ∧ u.weight (b + 1) r = w) ∧
         (u.arb (b + 1)).holder = a.holder ∧ (u.arb (b + 1)).wait = a.wait)) ∧
  (∀ (s : State) (r : Nat) (j : NvmJob) (at_ n : Nat) (l : List NvmStep), r < 3 → s.snt.warmDue = false →
     let a := s.arb 49
     let t := s.unit 2
     (s.domStill 0 = false → s.domStill 4 = false → a.next ≤ t → a.holder = none → a.preempted = none →
         s.seenAt 49 3 t = false → s.seenAt 49 r t = true →
         (∀ q, q < 3 → q ≠ r → s.seenAt 49 q t = true → s.aheadOf 49 r q = true) →
         s.headJob r = some j → j.steps = .read at_ n :: l →
       ∃ u, exec (.grantDecision .nvm { reqs := [], lane := false }) s = .next u ∧ (u.arb 49).holder = some r ∧
         (u.arb 49).since = t + 1 ∧ (u.arb 49).next = t + 1 ∧ u.ldr.transOn = true ∧ u.ldr.transAt = s.eng2 ∧
         u.ldr.progBusy = none ∧ u.ldr.jobs = s.ldr.jobs ∧ u.tw 0x13 (128 + r) 2 = s.tw 0x13 (128 + r) 2 + 1) ∧
     (t < a.next → Gives (.grantDecision .nvm { reqs := [], lane := false }) s s) ∧
     (a.boundary + 16384 ≤ t →
       ∃ u, exec (.windowBoundary .nvm) s = .next u ∧ (u.arb 49).boundary = a.boundary + 16384 ∧
         (let w := min (fld (s.tw 0x13 (128 + r) 0) 0 16) 16384
          u.credit 49 r = min (s.credit 49 r + (w : Int)) (w : Int) ∧ u.weight 49 r = w) ∧
         (u.arb 49).holder = a.holder) ∧
     (t < a.boundary + 16384 → Gives (.windowBoundary .nvm) s s))

/-- R217, R220, R224, R225, R300: the Sentinel takes the outbound grant: from a burst that has stalled for 16 cycles, which is torn, or
ABANDONED where none of its writes has gone, and whose locks show it; from a holder whose grant limit has passed, which is a fault of
its cluster, whose step unmasks its request. At an SRAM bank it takes the grant the
same way, which is a fault of the device; the holder is masked. At the NVM port the transaction of a grant beyond its limit ends. The
lock-hold watchdog ends the reflex that holds a lock for too long, and its sequence ABANDONED. -/
def Obligations.TearsAndBites : Prop :=
  ∀ (s : State) (h n : Nat), s.snt.warmDue = false →
    (∀ q, s.streaming = some (h, q) → 16 ≤ s.stallRun → s.seenAt 0 32 s.eng2 = true →
      ∃ u, exec .burstStallTear s = .next u ∧ (u.arb 0).holder = some 32 ∧ (u.arb 0).since = s.eng2 + 1 ∧
        (u.arb 0).preempted = some h ∧ u.stallRun = 0 ∧
        ∀ k, q.ph = .burst k → ∀ l ∈ q.locks, (u.lock l).last = if k = 0 then 2 else 3) ∧
    (s.stallRun < 16 → Gives .burstStallTear s s) ∧
    (h < 32 → (s.arb 0).holder = some h → fld (s.reg 0x3010) 0 12 ≠ 0 →
        (s.arb 0).since + 64 * fld (s.reg 0x3010) 0 12 ≤ s.eng2 → s.streaming = none →
        (s.func (512 + h)).tmr = none → (s.func (512 + h)).busy = false → (s.func (512 + h)).retired = false →
      ∃ u, exec (.grantWatchdogBite .outbound) s = .next u ∧ (u.arb 0).holder = some 32 ∧ (u.arb 0).since = s.eng2 + 1 ∧
        (u.arb 0).masked = (s.arb 0).masked.filter (· ≠ h) ∧ u.reg 0x1C2C = s.reg 0x1C2C + 1 ∧
        u.reg 0x1C30 = s.reg 0x1C30 + 1 ∧ u.reg 0x3074 = s.reg 0x3074 + 1 ∧ (u.func (512 + h)).step = 1) ∧
    (∀ i, (h < 32 ∧ i = Sys2Proof.ArbInst.outbound ∧ (s.arb 0).holder = some h ∧
            s.eng2 < (s.arb 0).since + 64 * fld (s.reg 0x3010) 0 12) ∨
          (h < 7 ∧ n < 48 ∧ i = .sram n ∧ (s.arb (n + 1)).holder = some h ∧
            s.eng2 < (s.arb (n + 1)).since + 64 * fld (s.reg 0x3010) 16 12) ∨
          (i = .nvm ∧ s.eng2 < 64 * (s.arb 49).since + fld (s.reg 0x3014) 16 8 * 2 ^ 20) →
      Gives (.grantWatchdogBite i) s s) ∧
    (h < 7 → n < 48 → (s.arb (n + 1)).holder = some h → fld (s.reg 0x3010) 16 12 ≠ 0 →
        (s.arb (n + 1)).since + 64 * fld (s.reg 0x3010) 16 12 ≤ s.eng2 →
        (s.func 5408).busy = false → (s.func 5408).step = 0 → (s.func 5408).tmr = none → s.portUp = true →
      ∃ u, exec (.grantWatchdogBite (.sram n)) s = .next u ∧ (u.arb (n + 1)).holder = some 7 ∧
        (u.arb (n + 1)).since = s.eng2 + 1 ∧ (u.arb (n + 1)).preempted = none ∧
        (u.arb (n + 1)).masked = (s.arb (n + 1)).masked ++ [h] ∧ u.reg 0x1C2C = s.reg 0x1C2C + 1 ∧
        u.reg 0x1C30 = s.reg 0x1C30 + 1 ∧ u.reg 0x3074 = s.reg 0x3074 + 1 ∧ u.clusters = s.clusters) ∧
    (∀ j a k l, fld (s.reg 0x3014) 16 8 ≠ 0 → s.ldr.transOn = true →
        64 * (s.arb 49).since + fld (s.reg 0x3014) 16 8 * 2 ^ 20 ≤ s.eng2 → s.txJob = some j → j.steps = .read a k :: l →
        (s.func 5408).busy = false → (s.func 5408).step = 0 →
      ∃ u, exec (.grantWatchdogBite .nvm) s = .next u ∧ u.ldr.transOn = false ∧ u.reg 0x3080 = s.reg 0x3080 + 1) ∧
    (∀ id q, n < 64 → fld (s.reg 0x3014) 0 16 ≠ 0 → (s.lock n).owner = some id → s.lseq id = some q → q.id = id →
        (s.lock n).acq + 32 * fld (s.reg 0x3014) 0 16 ≤ s.eng2 → q.ph = .opened → n ∈ q.locks → q.engine < 512 →
        s.seqsOf q.engine = [q] → s.seqCtx q = none → (s.eng q.engine).st = .run → (s.eng q.engine).occ = none → (s.eng q.engine).stall = .none →
        (s.func q.engine).tmr = none → (s.func q.engine).busy = false → (s.func q.engine).retired = false →
      ∃ u, exec (.lockHoldBite n) s = .next u ∧ (u.eng q.engine).st = .done ∧ (u.eng q.engine).flt = some 0xC ∧
        u.lseq id = some { q with ph := .ending (s.eng2 + 1) } ∧ (u.lock n).last = 2 ∧
        u.tw 0x0B q.engine 4 = s.tw 0x0B q.engine 4 + 1 ∧ u.reg 0x3078 = s.reg 0x3078 + 1)

/-! ## Tenancy (12) -/

/-- R233, R243: MAP_SRC of a free slot and an idle source in the tenant's band that no valid slot names writes the slot and the source's
identity; UNMAP_SRC undoes it; a command that may not act changes nothing and shows the first reason that stands: RANGE, OWNED, BUSY,
BAND; FLUSH holds the unit busy and visits 8 slots of the tenant at an edge, where every mapped source's
instances are discarded, until FLUSH_DONE. -/
def Obligations.TenantMapping : Prop :=
  ∀ (s : State) (v : Nat), v < 256 → s.mapHeld = [] → s.snt.warmDue = false →
    let virt := fld (s.reg 0x2000) 16 15
    let phys := fld (s.reg 0x2000) 0 15
    let j := fld (s.ten v 2) 0 15 + virt
    let e := s.tw 0x15 (j / 16) (j % 16)
    let was := fld e 0 15
    let gives := fun (c : Instr) (t : State) => Gives c s (s.answers t)
    (PortActs s 0 → s.flush = [] →
      (virt < s.vcnt v → j ≤ 32767 → phys < 0x5A40 → bit e 15 = false → s.slotNames phys = false → (s.src phys).st = .idle →
          s.inBand v (s.cls phys) (s.prio phys) = true →
        gives (.mapSrc v)
          (({ s with mapStat := 0 }.setTw 0x15 (j / 16) (j % 16) (wd (phys + 0x8000))).setTw 0x01 phys 4 (wd (virt + v * 65536))).touched) ∧
      (virt < s.vcnt v → j ≤ 32767 → 0x5A40 ≤ phys → gives (.mapSrc v) { s with mapStat := 1 }) ∧
      (virt < s.vcnt v → j ≤ 32767 → phys < 0x5A40 → bit e 15 = false → s.slotNames phys = false →
        ((s.src phys).st ≠ .idle → gives (.mapSrc v) { s with mapStat := 3 }) ∧
        ((s.src phys).st = .idle → s.inBand v (s.cls phys) (s.prio phys) = false → gives (.mapSrc v) { s with mapStat := 4 })) ∧
      (virt < s.vcnt v → j ≤ 32767 → phys < 0x5A40 → (bit e 15 = true ∨ s.slotNames phys = true) →
        gives (.mapSrc v) { s with mapStat := 2 }) ∧
      (s.vcnt v ≤ virt ∨ 32767 < j → gives (.mapSrc v) { s with mapStat := 1 } ∧ gives (.unmapSrc v) { s with mapStat := 1 }) ∧
      (virt < s.vcnt v → j ≤ 32767 → bit e 15 = true → (s.src was).st = .idle →
        gives (.unmapSrc v) (({ s with mapStat := 0 }.setTw 0x15 (j / 16) (j % 16) 0).setTw 0x01 was 4 (wd was)).touched) ∧
      (virt < s.vcnt v → j ≤ 32767 → bit e 15 = false → gives (.unmapSrc v) { s with mapStat := 2 }) ∧
      (virt < s.vcnt v → j ≤ 32767 → bit e 15 = true → (s.src was).st ≠ .idle → gives (.unmapSrc v) { s with mapStat := 3 }) ∧
      gives (.flush v) { s.bumpTw 0x14 v 14 with flush := [(v, 0)] }) ∧
    (∀ n k p, s.flush = [(v, n)] → n ≤ k → k < n + 8 → (∀ x ∈ s.occs, x.2.ctx < 4096) → 0x0800 ≤ p → p < 0x4800 →
        s.mapSlot v k = some p → s.mappedTo p = some v → (s.src p).st = .pending → (s.src p).place ≠ .direct →
      (s.flushVisits.src p).st = .idle ∧ (s.flushVisits.src p).q = [] ∧
        s.flushVisits.flush = [(v, if n < s.vcnt v then n + 8 else n)]) ∧
    (∀ n, s.flush = [(v, n)] →
      (s.vcnt v ≤ n → (s.func (5152 + v)).busy = false → Gives .flushDone s { s with flush := [], mapStat := 0 }) ∧
      (n < s.vcnt v → Gives .flushDone s s)) ∧
    (s.flush = [] → Gives .flushDone s s)

/-! ## Phase bases (07) -/

/-- R127, R128, R129, R131-R135, R143: an enabled base takes one feed sample at an edge, and takes it in as the edge ends. Its sequence
gap counts as lost; an invalid one counts, and the base extrapolates; a valid one sets A_i to its angle, offset and compensation by the
shortest way, and the velocity and the direction. A reversal is signalled and counted; a step beyond jmax counts and signals DISCONT;
either sets A_p to A_i. A sample ends a hold for want of one.

R137-R141: the index of a valid sample of a quadrature base. The reference index gives the offset and ends Unref; one within tol
re-phases and counts; one beyond counts as off-count, signals SQUASH, and is re-phased, held or only counted by the policy. With
iexp = 0 no index is checked.

R131, R132: an edge with no sample: A_i moves by the velocity in Run and Unref, and A_p follows it only in the base's direction; in
Held both stay.

The model's choice (log 24, log 119, log 120): every index checked sets A_idx; PHS_LAST_IDX shows the deviation of a reference index
as well; a sample in Held is no step of R133. -/
def Obligations.SamplesAndExtrapolation : Prop :=
  ∀ (s : State) (n : Nat) (ang spd iang : Word) (flg : BitVec 8), n < 16 → s.isTime n = false → s.domStill 1 = false →
    let b := s.base n
    let x : FeedSample := { ang := ang, spd := spd, iang := iang, flg := flg }
    let live := b.st = .run ∨ b.st = .unref
    let on := b.ai + BitVec.ofInt 80 b.vel.toInt
    let u := s.baseWork n
    (s.snt.warmDue = false →
      (b.st ≠ .disabled → (s.phsEdge n).sample = none → Gives (.feedSample n ang spd iang flg) s
        { s with edge := { s.edge with phs := mSet (fun _ => {}) s.edge.phs n { s.phsEdge n with sample := some x } } }) ∧
      (b.st = .disabled → Gives (.feedSample n ang spd iang flg) s s)) ∧
    (s.phsEdge n = {} →
      (live →
        let d := (angTu on - b.ap).toInt
        (u.base n).ai = on ∧
        ((b.dir = .still ∨ (b.dir = .fwd ∧ 0 < d) ∨ (b.dir = .rev ∧ d < 0)) → (u.base n).ap = angTu on) ∧
        ((b.dir = .fwd ∧ d ≤ 0) ∨ (b.dir = .rev ∧ 0 ≤ d) → (u.base n).ap = b.ap)) ∧
      (b.st = .held → u.base n = b)) ∧
    (b.st ≠ .disabled → s.phsEdge n = { sample := some x } →
      let seq : BitVec 4 := (flg >>> 4).setWidth 4
      let gap := match b.fseq with
        | some p => (seq - p - 1).toNat
        | none => 0
      (u.base n).fseq = some seq ∧ u.tw 0x09 n 2 = s.tw 0x09 n 2 + wd gap ∧ u.bReg n 0x34 = flg.setWidth 32 ∧
      (flg.getLsbD 0 = false →
        u.tw 0x09 n 1 = s.tw 0x09 n 1 + 1 ∧ (u.base n).st = b.st ∧ (u.base n).lastValid = b.lastValid ∧
          (live → (u.base n).ai = on) ∧ (b.st = .held → (u.base n).ai = b.ai ∧ (u.base n).ap = b.ap) ∧ u.srcs = s.srcs) ∧
      (flg.getLsbD 0 = true →
        let neg := s.btype n = 1 ∧ spd.toInt < 0
        let v : Int := if flg.getLsbD 1 = true ∨ flg.getLsbD 2 = true ∨ neg then 0
          else max (-2 ^ 31) (min ((spd.toInt * ((s.bReg n 4).toNat : Int)) / 2 ^ 16) (2 ^ 31 - 1))
        let f : Int := ((ang + s.bReg n 0x3C).toNat : Int) * 2 ^ 16 + (3 + (fld (s.bcfg n) 8 8 : Int)) * v
        let vmin : Int := (fld (s.bReg n 0x38) 0 31 : Int)
        let a1 := b.ai + (BitVec.ofInt 48 f - b.ai.setWidth 48).signExtend 80
        let dir : Dir := if vmin < v then .fwd else if v < -vmin then .rev else .still
        let turns := dir ≠ .still ∧ decide (dir = .rev) ≠ b.lastRev
        let j : Int := (fld (s.bReg n 0x0C) 0 31 : Int) * 2 ^ 16
        let ch := (a1 - b.ai).toInt
        let ex := (a1 - on).toInt
        let jump := (dir = .fwd ∧ (ch < -j ∨ j < ex)) ∨ (dir = .rev ∧ (j < ch ∨ ex < -j)) ∨ (dir = .still ∧ (ex < -j ∨ j < ex))
        (u.base n).vel = BitVec.ofInt 32 v ∧ (u.base n).dir = dir ∧ (u.base n).lastValid = s.rank ∧ (u.base n).fheld = false ∧
        u.tw 0x09 n 0 = s.tw 0x09 n 0 + 1 ∧ u.tw 0x09 n 4 = s.tw 0x09 n 4 + (if turns then 1 else 0) ∧
        (turns → (u.base n).sig.reverse = true) ∧
        (flg.getLsbD 3 = false ∨ s.btype n ≠ 0 →
          (u.base n).ai = a1 ∧ u.bReg n 0x3C = s.bReg n 0x3C ∧ u.tw 0x09 n 8 = s.tw 0x09 n 8 ∧
          (live → (u.base n).st = b.st ∧ u.tw 0x09 n 6 = s.tw 0x09 n 6 + (if jump then 1 else 0) ∧
            (jump → (u.base n).sig.discont = true) ∧ (jump ∨ turns → (u.base n).ap = angTu a1)) ∧
          (b.st = .held → b.ihold = false →
            (u.base n).st = (if s.btype n = 0 ∧ bit (s.bcfg n) 3 = true ∧ b.refd = false then .unref else .run) ∧
              (u.base n).ap = angTu a1 ∧ (u.base n).sig.discont = true) ∧
          (b.st = .held → b.ihold = true → (u.base n).st = .held ∧ (u.base n).ap = b.ap)) ∧
        (flg.getLsbD 3 = true → s.btype n = 0 →
          let back := if dir = .still then b.lastRev else decide (dir = .rev)
          let dev := iang + s.bReg n 0x3C - (if back then s.bReg n 0x10 + s.bReg n 0x18 else s.bReg n 0x10)
          let a2 := a1 + BitVec.ofInt 80 (-(dev.toInt * 2 ^ 16))
          let tol := fld (s.bReg n 0x14) 0 31
          let stays := u.bReg n 0x3C = s.bReg n 0x3C ∧ (u.base n).ai = a1
          let moves := u.bReg n 0x3C = s.bReg n 0x3C - dev ∧ (u.base n).ai = a2
          (b.st = .unref → moves ∧ u.bReg n 0x30 = dev ∧ (u.base n).st = .run ∧ (u.base n).refd = true ∧ (u.base n).aidx = a2 ∧
            (u.base n).sig.discont = true ∧ (u.base n).sig.run = true ∧ (u.base n).ap = angTu a2) ∧
          (b.st ≠ .unref → bit (s.bcfg n) 6 = false → stays ∧ u.bReg n 0x30 = s.bReg n 0x30 ∧
            u.tw 0x09 n 7 = s.tw 0x09 n 7 ∧ u.tw 0x09 n 8 = s.tw 0x09 n 8) ∧
          (b.st ≠ .unref → bit (s.bcfg n) 6 = true → u.bReg n 0x30 = dev ∧
            (dev.toInt.natAbs ≤ tol → moves ∧ u.tw 0x09 n 7 = s.tw 0x09 n 7 + 1 ∧ u.tw 0x09 n 8 = s.tw 0x09 n 8) ∧
            (tol < dev.toInt.natAbs → u.tw 0x09 n 7 = s.tw 0x09 n 7 ∧ u.tw 0x09 n 8 = s.tw 0x09 n 8 + 1 ∧
              (u.base n).sig.squash = true ∧
              (b.st = .held → stays) ∧
              (b.st = .run → fld (s.bcfg n) 4 2 = 1 → stays ∧ (u.base n).st = .held ∧ (u.base n).ihold = true ∧
                (u.base n).sig.held = true ∧ (u.base n).ap = b.ap) ∧
              (b.st = .run → fld (s.bcfg n) 4 2 = 2 → stays ∧ (u.base n).st = .run) ∧
              (b.st = .run → fld (s.bcfg n) 4 2 = 0 → moves ∧ (u.base n).st = .run ∧ (u.base n).sig.discont = true ∧
                (u.base n).ap = angTu a2))))))

/-- R136, R140, R143: a feed loss and a missing index, each judged as its edge ends, after the extrapolation: a lost feed holds the base
with A_p frozen; a missing index, under policy Hold, holds it too. R142, R143: ZERO sets the angles to 0 and signals DISCONT, at whose
edge's end the base's contexts begin to rebuild (R165, R166); RELEASE ends an index hold; the base extrapolates after both.

The model's choice (log 24): ZERO and a missing index set A_idx. -/
def Obligations.BaseEvents : Prop :=
  ∀ (s : State) (n : Nat), n < 16 → s.domStill 1 = false → s.snt.warmDue = false →
    let b := s.base n
    let on := b.ai + BitVec.ofInt 80 b.vel.toInt
    let u := s.baseWork n
    let notes := fun (e : PhsEdge) => { s with edge := { s.edge with phs := mSet (fun _ => {}) s.edge.phs n e } }
    Gives (.feedLoss n) s (notes { s.phsEdge n with loss := true }) ∧
    Gives (.missingIndex n) s (notes { s.phsEdge n with noIndex := true }) ∧
    (s.isTime n = false → (b.st = .run ∨ b.st = .unref) → s.phsEdge n = { loss := true } →
      (fld (s.bcfg n) 16 12 ≠ 0 → b.lastValid + 64 * fld (s.bcfg n) 16 12 < s.rank →
        (u.base n).st = .held ∧ (u.base n).fheld = true ∧ (u.base n).ap = b.ap ∧ (u.base n).ai = on ∧
          (u.base n).sig.held = true ∧ u.tw 0x09 n 3 = s.tw 0x09 n 3 + 1) ∧
      (fld (s.bcfg n) 16 12 = 0 ∨ s.rank ≤ b.lastValid + 64 * fld (s.bcfg n) 16 12 →
        (u.base n).st = b.st ∧ (u.base n).fheld = b.fheld ∧ u.tw 0x09 n 3 = s.tw 0x09 n 3)) ∧
    (s.btype n = 0 → bit (s.bcfg n) 6 = true → (b.st = .run ∨ b.st = .unref) → s.phsEdge n = { noIndex := true } →
      let beyond := 2 ^ 32 + fld (s.bReg n 0x14) 0 31 < (angTu on - angTu b.aidx).toInt.natAbs
      (beyond → fld (s.bcfg n) 4 2 = 1 →
        (u.base n).st = .held ∧ (u.base n).ihold = true ∧ (u.base n).ap = b.ap ∧ (u.base n).aidx = on ∧
          (u.base n).sig.held = true ∧ (u.base n).sig.squash = true ∧ u.tw 0x09 n 8 = s.tw 0x09 n 8 + 1 ∧
          u.tw 0x09 n 9 = s.tw 0x09 n 9 + 1 ∧ u.bReg n 0x30 = 0x80000000) ∧
      (¬beyond → (u.base n).st = b.st ∧ (u.base n).aidx = b.aidx ∧ u.tw 0x09 n 9 = s.tw 0x09 n 9)) ∧
    (PortActs s 1 →
      (b.st ≠ .disabled →
        ∃ u, exec (.zero n) s = .next u ∧ (u.base n).ai = 0 ∧ (u.base n).ap = 0 ∧
          (u.base n).aidx = 0 ∧ (u.base n).st = b.st ∧ (u.base n).sig.discont = true ∧
          (s.isTime n = false → ∀ a, b.lastAng = some a → u.bReg n 0x3C = -a)) ∧
      (b.st = .disabled → Gives (.zero n) s (s.answers s)) ∧
      (b.st = .held → b.ihold = true → b.fheld = false → (s.btype n = 0 → bit (s.bcfg n) 3 = true → b.refd = true) →
        ∃ u, exec (.release n) s = .next u ∧ (u.base n).st = .run ∧ (u.base n).ihold = false ∧
          (u.base n).ai = b.ai ∧ (u.base n).ap = angTu b.ai ∧
          (u.base n).sig.discont = true ∧ (u.base n).sig.run = true) ∧
      (b.st ≠ .held → Gives (.release n) s (s.answers s))) ∧
    (∃ c, ((s.signals n { discont := true }).base n).rebuild = some (b.ap, s.rank, c)) ∧
    (s.signals n { discont := true }).reg 0x1410 = s.reg 0x1410 + 1

/-! ## Event contexts (08) -/

/-- R148: arming a context on a base in Run that travels forward, in reverse, or on a time base. A target ahead of A_p takes a launch
entry at the target less the lead; one within the lead of a run-ahead context fires at once; one behind within the late window, or at
A_p, fires at once, with LATE when behind; one further behind is taken a turn on. On a time base, whose compare is a whole angle, one
behind fires at once whatever the window. R157: what a run-ahead context of an engine pool fires is an occurrence, outstanding while its
target is ahead. R149: on a base at a standstill the context waits for its compare either way, and fires at once when it stands at it or
within the lead. A context whose base is not in Run waits. -/
def Obligations.ArmsContext : Prop :=
  ∀ (s : State) (k : Nat) (cmp ap : W64),
    let n := s.cbase k
    let u := s.armAt k cmp ap
    let p := 0x4800 + k
    let w := s.tw 0x0A k 5
    let lead := if s.cra k = true then (s.tw 0x0A k 4).setWidth 64 else 0#64
    let time := s.isTime n = true
    let rev := ¬time ∧ s.bdir n = .rev
    let still := ¬time ∧ s.bdir n = .still
    let d0 := if time then (cmp - ap).toInt else if rev then (lo32 ap - lo32 cmp).toInt else (lo32 cmp - lo32 ap).toInt
    let d := if ¬time ∧ d0 < 0 ∧ (w.toNat : Int) < -d0 then d0 + 2 ^ 32 else d0
    let t := if rev then ap - BitVec.ofInt 64 d else ap + BitVec.ofInt 64 d
    let dir : Dir := if rev then .rev else .fwd
    let df := (lo32 cmp - lo32 ap).setWidth 64
    let dr := (lo32 ap - lo32 cmp).setWidth 64
    let ready := k < 4096 ∧ s.serving = true ∧ (s.src p).q.length < 2 ∧ s.crep k = false
    let fires := fun (late reached either : Bool) (at_ : W64) (go : Dir → Prop) =>
      (u.ctx k).entries = [] ∧ (u.ctx k).waiting = false ∧ u.ctgt k = at_ ∧ (u.ctx k).late = late ∧
      u.tw 0x0A k 10 = s.tw 0x0A k 10 + 1 ∧ u.tw 0x0A k 11 = s.tw 0x0A k 11 + (if late then 1 else 0) ∧
      (s.cra k = false ∨ s.toPool p = false → (u.src p).q = (s.src p).q ++ [{ late := late }] ∧ u.occs = s.occs) ∧
      (s.cra k = true → s.toPool p = true →
        (u.src p).q = (s.src p).q ++ [{ late := late, occ := some s.occNext }] ∧
        ∃ v, go v ∧ mFind u.occs s.occNext =
          some { id := s.occNext, ctx := k, tgt := at_, dir := v, either := either, raised := s.rank, late := late,
                 hlim := fld (s.tw 0x0A k 6) 0 12, st := if reached then .ordered else .launched, entry := !reached })
    ((s.base n).st ≠ .run → (u.ctx k).entries = [] ∧ (u.ctx k).waiting = true ∧ (u.ctx k).waitAng = cmp ∧ u.srcs = s.srcs) ∧
    ((s.base n).st = .run → ¬still →
      (0 < d → (s.cra k = true → (lead.toNat : Int) < d) →
        (u.ctx k).entries = [{ ang := if rev then t + lead else t - lead, tgt := t, dir := dir, both := false }] ∧
        u.ctgt k = t ∧ u.srcs = s.srcs ∧ u.occs = s.occs ∧ (u.ctx k).waiting = false) ∧
      (0 < d → s.cra k = true → d ≤ (lead.toNat : Int) → ready → fires false false false t (· = dir)) ∧
      (d ≤ 0 → ready → fires (decide (d < 0)) true false t (· = dir))) ∧
    ((s.base n).st = .run → still →
      (df = 0 → ready → fires false true true ap fun _ => True) ∧
      (df ≠ 0 → s.cra k = true → df.toNat ≤ lead.toNat → ready → fires false false true (ap + df) (· = .fwd)) ∧
      (df ≠ 0 → s.cra k = true → lead.toNat < df.toNat → dr.toNat ≤ lead.toNat → ready →
        fires false false true (ap - dr) (· = .rev)) ∧
      (df ≠ 0 → (s.cra k = true → lead.toNat < df.toNat ∧ lead.toNat < dr.toNat) →
        (u.ctx k).entries = [{ ang := ap + df - lead, tgt := ap + df, dir := .fwd, both := true },
                             { ang := ap - dr + lead, tgt := ap - dr, dir := .rev, both := true }] ∧
        u.ctgt k = ap + df ∧ u.srcs = s.srcs ∧ u.occs = s.occs))

/-- R147, R154, R156, R157: LAUNCH of the one entry that the sweep has taken: the context's source is raised with its late mark,
the count advances, and a run-ahead context's occurrence is launched until its target.

R161, R162, R166, R167: a release that the sweep has taken is ordered, and at the edge's end its held write joins its cluster's outbound
queue; an
occurrence whose hold limit has passed is squashed, its held writes discarded; a rebuild ends and the sweep goes on from its
snapshot.

The model's choice: log 108: freed places join the queue as the release's edge ends, and request from the ENG_CLK edge at or before it;
log 77: the sweep's order and edges. -/
def Obligations.LaunchesAndReleases : Prop :=
  (∀ (s : State) (n k : Nat) (e : LEntry), n < 16 → k < 4096 → s.sweeps n = true → s.ripeLaunches n = [(k, e)] →
     s.serving = true → s.crep k = false → (s.src (0x4800 + k)).q.length < 2 → s.snt.warmDue = false →
     let d := dist e.dir e.takenAp e.tgt
     let late := if e.ang = e.tgt then s.isTime n && e.behind else decide (d ≤ 0)
     (s.isTime n = true ∨ -((s.ctx k).lw.toNat : Int) ≤ d) →
     (s.cra k = false →
       ∃ u, exec (.launch n) s = .next u ∧ (u.src (0x4800 + k)).q = (s.src (0x4800 + k)).q ++ [{ late := late }] ∧
         (u.ctx k).entries = [] ∧ (u.ctx k).late = late ∧ u.tw 0x0A k 10 = s.tw 0x0A k 10 + 1 ∧ u.occs = s.occs) ∧
     (s.cra k = true → s.toPool (0x4800 + k) = true → e.both = false → late = false → 0 < dist e.dir (s.base n).ap e.tgt →
       ∃ u, exec (.launch n) s = .next u ∧
         (u.src (0x4800 + k)).q = (s.src (0x4800 + k)).q ++ [{ late := false, occ := some s.occNext }] ∧
         u.occNext = s.occNext + 1 ∧
         mFind u.occs s.occNext = some { id := s.occNext, ctx := k, tgt := e.tgt, dir := e.dir, either := false, raised := s.rank,
                                         late := false, hlim := (s.ctx k).hlim.toNat, st := .launched } ∧
         u.tw 0x0A k 10 = s.tw 0x0A k 10 + 1) ∧
     (s.cra k = true → s.toPool (0x4800 + k) = true → dist e.dir (s.base n).ap e.tgt ≤ 0 →
       ∃ u o, exec (.launch n) s = .next u ∧ mFind u.occs s.occNext = some o ∧ o.st = .ordered ∧ o.entry = false ∧
         o.late = late ∧ s.occNext ∈ u.edge.rel)) ∧
  (∀ (s : State) (n : Nat) (o : Occ), s.domStill 1 = false → s.snt.warmDue = false → o.ctx < 4096 → mFind s.occs o.id = some o →
     (s.src (0x4800 + o.ctx)).st = .active → (∃ i ∈ (s.src (0x4800 + o.ctx)).q, i.occ = some o.id) →
     (n < 16 → s.sweeps n = true →
         ((s.occs.map Prod.snd).filter fun o => decide (s.cbase o.ctx = n) && o.entry && s.ripe o.taken) = [o] →
       ∃ u, exec (.releaseOrdered n) s = .next u ∧
         mFind u.occs o.id = some { o with st := .ordered, entry := false } ∧ o.id ∈ u.edge.rel ∧ u.clusters = s.clusters) ∧
     (∀ e a d, o.engine = some e → o.places = [.write a d] → (s.cluster (e / 16)).queue = [] →
       let u := s.finishRelease o.id
       mFind u.occs o.id = some { o with places := [] } ∧
         (u.cluster (e / 16)).queue = [.freed o.ctx (.write a d)] ∧ (u.cluster (e / 16)).reqAt = s.eng2 ∧
         (∀ c, c ≠ e / 16 → u.cluster c = s.cluster c)) ∧
     (o.st = .launched → (∀ p ∈ o.places, ∃ a d, p = .write a d) → o.hlim ≠ 0 → o.raised + 64 * o.hlim ≤ s.rank →
         bit (s.ccfg o.ctx) 8 = true →
       ∃ u, exec (.holdLimitExpiry o.id) s = .next u ∧
         mFind u.occs o.id = some { o with st := .squashed, entry := false, places := [] } ∧
         (u.ctx o.ctx).sqr = 6 ∧ (u.ctx o.ctx).entries = [] ∧ u.tw 0x0A o.ctx 13 = s.tw 0x0A o.ctx 13 + 1 ∧
         u.reg 0x140C = wd (o.ctx + 6 * 4096 + 0x10000) ∧ u.clusters = s.clusters ∧ u.locks = s.locks) ∧
     (o.hlim = 0 → (∀ p ∈ o.places, ∃ a d, p = .write a d) → Gives (.holdLimitExpiry o.id) s s) ∧
     (∀ snap t c, n < 16 → (s.base n).rebuild = some (snap, t, c) → t + cdiv c 8 ≤ s.rank →
       ∃ u, exec (.rebuildEnd n) s = .next u ∧ (u.base n).rebuild = none ∧ (u.base n).waitArms = [] ∧
         (u.base n).slot = slotOf snap ∧ (u.base n).ap = (s.base n).ap) ∧
     (∀ snap t c, n < 16 → (s.base n).rebuild = some (snap, t, c) → s.rank < t + cdiv c 8 → Gives (.rebuildEnd n) s s))


/-! ## The loader and the NVM port (13) -/

/-- R39, R246, R258, R260, R266, R267: commands of LDR_CMD. While one is in progress a write is held; NVM_READ, NVM_PROG and
NVM_ERASE check their range and protection and go on as jobs of the NVM port; LOCK locks every record again; SWAP_CANCEL and an
expired swap end REFUSED.

R267: UNLOCK compares the password's hash with every record's, unlocks the matching ones or counts a failure, locks out
after the eighth, and clears the password registers. -/
def Obligations.LoaderWork : Prop :=
  (∀ (s : State), PortActs s 4 → s.snt.warmDue = false →
     let l := s.ldr
     let a := (s.reg 0x2404).toNat
     let n := fld (s.reg 0x2408) 0 9
     let job := fun (u : NvmUse) (x : NvmStep) =>
       (s.answers { s with ldr := { l with busy := true, jobs := l.jobs ++ [{ req := 0, use := u, steps := [x], at_ := s.eng2 / 64 }] } })
     let ended := fun (c : Nat) => (s.answers { s with ldr := { l with busy := false, cstat := c } })
     let ranged := 1 ≤ n ∧ n ≤ 256 ∧ a + n ≤ l.nvmSize
     ((l.busy = true ∨ l.held ≠ []) → 
       Gives .nvmRead s { s with regTag := s.regTag + 1,
                                 ldr := { l with held := l.held ++ [{ addr := 0x2400, size := .b32, wr := true, data := 4, id := s.regTag }] } }) ∧
     (l.busy = false → l.held = [] →
       (ranged → Gives .nvmRead s (job .nvmRead (.read a n))) ∧
       (¬ranged → Gives .nvmRead s (ended 2) ∧ Gives .nvmProg s (ended 2)) ∧
       (ranged → a % s.pageSize + n ≤ s.pageSize →
         (s.protectedAt a n = true → Gives .nvmProg s (ended 1)) ∧
         (s.protectedAt a n = false → Gives .nvmProg s (job .nvmProg (.prog a (s.ldrBuf.take n))))) ∧
       (l.nvmSize ≤ a → Gives .nvmErase s (ended 2)) ∧
       (a < l.nvmSize → s.protectedAt (s.sectOf a) s.sectSize = true → Gives .nvmErase s (ended 1)) ∧
       (a < l.nvmSize → s.protectedAt (s.sectOf a) s.sectSize = false → s.isNor = true →
         Gives .nvmErase s (job .nvmErase (.erase (s.nvmPhys (s.sectOf a))))) ∧
       Gives .protectionLock s (s.answers { s with ldr := { l with unl := [], busy := false, cstat := 0 } }) ∧
       (l.spend = true → Gives .swapCancel s (s.answers { s with ldr := { l with spend := false, swapCrossed := none, cstat := 8 } }))) ∧
     (let t := fld (s.reg 0x241C) 16 12;
       (l.spend = true → t ≠ 0 → l.spendAt + 65536 * t ≤ s.rank →
         Gives .swapTimeout s { s with ldr := { l with spend := false, swapCrossed := none, cstat := 8 } }) ∧
       (l.spend = false ∨ t = 0 ∨ s.rank < l.spendAt + 65536 * t → Gives .swapTimeout s s))) ∧
  (∀ (s : State), PortActs s 4 → s.ldr.busy = false → s.ldr.held = [] → s.snt.warmDue = false →
     1 ≤ fld (s.reg 0x2408) 0 9 → fld (s.reg 0x2408) 0 9 ≤ 32 →
     let hit := fun (k : Nat) => ∃ r, s.protRec k = some r ∧ s.matchesPw r = true
     ∃ u, exec .unlock s = .next u ∧ (∀ i, i < 8 → u.reg (0x2440 + 4 * i) = 0) ∧ u.ldr.busy = false ∧ u.ldr.nvm = s.ldr.nvm ∧
       (s.ldr.lockout = true → u.ldr.cstat = 6 ∧ u.ldr.unl = s.ldr.unl) ∧
       (s.ldr.lockout = false → (∃ k, k < 4 ∧ hit k) →
         u.ldr.cstat = 0 ∧ u.ldr.fails = s.ldr.fails ∧ ∀ k, k < 4 → (k ∈ u.ldr.unl ↔ k ∈ s.ldr.unl ∨ hit k)) ∧
       (s.ldr.lockout = false → (¬∃ k, k < 4 ∧ hit k) →
         u.ldr.cstat = 5 ∧ u.ldr.fails = s.ldr.fails + 1 ∧ u.ldr.lockout = decide (8 ≤ s.ldr.fails + 1) ∧
         u.ldr.unl = s.ldr.unl ∧ u.reg 0x2474 = s.reg 0x2474 + 1))

/-- R256, R257: SAVE and RETUNE go on as jobs: SAVE erases and programs the older half of the last-settings area, unless it is
protected or absent; RETUNE reads the profile, unless the block is not open, still drains, or has no such region.

R258, R259: SWAP at a swap edge acts after every other update of it: the two copies of the swap set change places, and the block is on the new epoch; with no
context changed nothing else of the tables moves, and an engine that runs goes on from the outgoing copy. -/
def Obligations.SavesRetunesSwaps : Prop :=
  (∀ (s : State) (p : BitVec 2), PortActs s 4 → s.ldr.busy = false → s.ldr.held = [] → s.snt.warmDue = false →
     (s.region 4 = none → Gives .save s (s.answers (s.ldrEnd 4))) ∧
     (∀ b n, s.region 4 = some (b, n) → s.protectedAt b n = true → Gives .save s (s.answers (s.ldrEnd 1))) ∧
     (∀ b n, s.region 4 = some (b, n) → s.protectedAt b n = false → s.saveImage.length ≤ n / 2 →
       ∃ u x, exec .save s = .next u ∧ u.ldr.busy = true ∧ u.ldr.jobs = s.ldr.jobs ++ [x] ∧ x.req = 0 ∧
         x.use = .save s.saveHalf ∧ u.ldr.nvm = s.ldr.nvm) ∧
     (s.ldr.phase ≠ .opened → Gives (.retune p) s (s.answers (s.ldrEnd 9))) ∧
     (s.draining = true → Gives (.retune p) s (s.answers (s.ldrEnd 9))) ∧
     (∀ a n, s.ldr.phase = .opened → s.draining = false → s.region p.toNat = some (a, n) →
       ∃ u x, exec (.retune p) s = .next u ∧ u.ldr.busy = true ∧ u.ldr.jobs = s.ldr.jobs ++ [x] ∧ x.use = .retune p.toNat ∧
         x.steps = readAt a (min n 0x200000) ∧ u.shadowTbl = s.tbl.filter (fun y => swapKey y.1) ∧ u.tbl = s.tbl)) ∧
  (∀ (s : State), s.snt.warmDue = false →
     (s.swapReady = false → Gives .swap s s) ∧
     (s.swapReady = true → Gives .swap s { s with edge := { s.edge with swap := true } }) ∧
     (s.edge.swap = false ∨ s.ldr.spend = false → s.endSwap = s) ∧
     (s.edge.swap = true → s.ldr.spend = true → s.edge.arms = [] →
       swapCtxs (s.tbl.filter fun x => swapKey x.1) s.shadowTbl = [] →
       let u := s.endSwap
       u.ldr.spend = false ∧ u.ldr.epoch = s.ldr.pendEpoch ∧ u.ldr.cstat = 0 ∧
         u.shadowTbl = s.tbl.filter (fun x => swapKey x.1) ∧
         (∀ x, x ∈ u.tbl ↔ (x ∈ s.tbl ∧ swapKey x.1 = false) ∨ x ∈ s.shadowTbl) ∧
         (∀ x ∈ s.engs, x.2.st = .run → ∃ y ∈ u.engs, y.1 = x.1 ∧ y.2 = { x.2 with oldCopy := true })))

/-- R249, R250, R252, R254: a start sequence ends in Failed when no header is valid; opens on the retained state when that is
valid, or else on the selected slot when its profile is, here one with no sections, and no last settings are used; OPEN opens a failed block and is refused in any other phase.

R255: RESTART overrides the profile selection, gives up the kept tables and resets the block warm: the start begins anew, and
no engine runs and no source holds an instance.

The model's choice: log 31: a restart comes at the edge of its command; log 38: the domains return one at a time before the start. -/
def Obligations.StartsAndRestarts : Prop :=
  (∀ (s : State), s.snt.warmDue = false →
     (s.startDue = false → Gives .startSequence s s) ∧
     (s.startDue = true → s.prepare.ldr.hdr = none →
       ∃ u, exec .startSequence s = .next u ∧ u.ldr.phase = .failed ∧ u.serving = false) ∧
     (s.startDue = true → s.prepare.ldr.hdr.isSome = true → s.prepare.retainedOk = true →
       ∃ u, exec .startSequence s = .next u ∧ u.ldr.phase = .opened ∧ u.ldr.path = 0 ∧ u.ldr.epoch = s.prepare.ldr.ret.epoch) ∧
     (PortActs s 4 → s.ldr.busy = false → s.ldr.held = [] → s.ldr.phase = .failed →
       ∃ u, exec .openBlock s = .next u ∧ u.ldr.phase = .opened ∧ u.ldr.path = 3) ∧
     (PortActs s 4 → s.ldr.busy = false → s.ldr.held = [] → s.ldr.phase ≠ .failed →
       Gives .openBlock s (s.answers { s with ldr := { s.ldr with cstat := 9 } }))) ∧
  (∀ (s : State) (p : BitVec 2), PortActs s 4 → s.ldr.busy = false → s.ldr.held = [] → s.pwr.trans = none →
     ∃ u, exec (.restart p) s = .next u ∧ u.ldr.ret.override = true ∧ u.ldr.sel = p.toNat ∧ u.ldr.ret.memkept = false ∧
       u.ldr.phase = .header ∧ u.rank = 0 ∧ u.engs = [] ∧ u.srcs = [] ∧ u.locks = [] ∧ u.snt.safe = s.snt.safe ∧
       u.snt.warmDue = false ∧ u.ldr.nvm = s.ldr.nvm ∧ u.pwr.dom = s.pwr.dom) ∧
  (∀ (s : State) (b : List Byte), s.snt.warmDue = false → s.startDue = true → s.prepare.ldr.hdr.isSome = true →
     s.prepare.retainedOk = false → s.prepare.header.uselast = false → s.prepare.profAt s.ldr.sel = some b → sections b = [] →
     ∃ u, exec .startSequence s = .next u ∧ u.ldr.phase = .opened ∧ u.ldr.path = 2 ∧ u.ldr.epoch = wd (profEpoch b))

/-- R246, R260, R261: transactions that end well. A read of NVM_READ fills the loader buffer; NVM_PROG changes the bytes of its
range, and of nothing else; an erase leaves its sector, and no other byte, at 0xFF. R260: on NOR an NVM_PROG whose range is not blank ends NONBLANK before its transaction begins, and changes
nothing.

R246, R261, R263, R300: NVM_PROG that stays busy beyond its limit ends TIMEOUT, and its sector is counted and shown as bad. An
erase is suspended after 2 ms of run while a read waits, and resumes when none does.

The model's choice: log 60, log 71: limits in cycles at the nominal frequency; what a TIMEOUT leaves of each command. -/
def Obligations.NvmPort : Prop :=
  (∀ (s : State) (j : NvmJob), s.ldr.held = [] → s.snt.warmDue = false →
     let byte := fun (t : State) (p : Nat) => mGet (fun _ => 0xFF#8) t.ldr.nvm p
     (∀ a n, s.txJob = some j → j.steps = [.read a n] → j.use = .nvmRead → j.got = [] → n ≤ 256 →
       ∃ u, exec .nvmTransactionEnd s = .next u ∧ u.ldr.busy = false ∧ u.ldr.cstat = 0 ∧ u.ldr.transOn = false ∧
         u.ldrBuf = s.nvmBytes a n ++ s.ldrBuf.drop n ∧ u.ldr.nvm = s.ldr.nvm) ∧
     (∀ a d, s.txJob = some j → j.steps = [.prog a d] → j.use = .nvmProg →
         (∀ i, i < d.length → s.nvmPhys (a + i) = s.nvmPhys a + i) →
       ∃ u, exec (.nvmBusyClear .good) s = .next u ∧ u.ldr.busy = false ∧ u.ldr.cstat = 0 ∧ u.ldr.transOn = false ∧
         (∀ i, i < d.length → byte u (s.nvmPhys a + i) = d.getD i 0) ∧
         (∀ p, p < s.nvmPhys a ∨ s.nvmPhys a + d.length ≤ p → byte u p = byte s p)) ∧
     (∀ a d i, (s.arb 49).holder.bind s.headJob = some j → j.steps = [.prog a d] → j.use = .nvmProg → s.isNor = true →
         i < d.length → s.nvmByte (a + i) ≠ 0xFF#8 →
       let u := s.beginTrans
       u.ldr.busy = false ∧ u.ldr.cstat = 3 ∧ u.ldr.transOn = s.ldr.transOn ∧ u.ldr.nvm = s.ldr.nvm ∧
         u.reg 0x2460 = s.reg 0x2460 + 1) ∧
     (∀ e, s.txJob = none → s.ldr.erase = some e → e.susp = false → s.erasingJob = some j → j.steps = [.erase e.addr] →
         j.use = .nvmErase →
       ∃ u, exec (.nvmBusyClear .good) s = .next u ∧ u.ldr.busy = false ∧ u.ldr.cstat = 0 ∧ u.ldr.erase = none ∧
         (∀ p, e.addr ≤ p → p < e.addr + s.sectSize → byte u p = 0xFF#8) ∧
         (∀ p, p < e.addr ∨ e.addr + s.sectSize ≤ p → byte u p = byte s p))) ∧
  (∀ (s : State), s.snt.warmDue = false →
     (∀ j a d, s.txJob = some j → j.steps = [.prog a d] → j.use = .nvmProg → s.ldr.held = [] → s.progLate = true →
         s.region 8 = none → (s.func 5408).busy = true → (s.func 5408).step = 1 →
       ∃ u, exec .nvmTimeout s = .next u ∧ u.ldr.busy = false ∧ u.ldr.cstat = 7 ∧ u.ldr.transOn = false ∧
         u.reg 0x2428 = wd (s.nvmPhys (s.sectOf a)) ∧ u.reg 0x246C = s.reg 0x246C + 1 ∧ u.ldr.nvm = s.ldr.nvm) ∧
     (∀ e, s.ldr.erase = some e → e.susp = false → e.runFrom + 3200000 ≤ s.eng2 → s.readWaits = true →
       Gives .eraseSuspend s
         { s.bump 0x2464 with ldr := { s.ldr with erase := some { e with susp := true, suspAt := some s.eng2 } } }) ∧
     (∀ e, s.ldr.erase = some e → e.susp = true ∨ s.eng2 < e.runFrom + 3200000 ∨ s.readWaits = false →
       Gives .eraseSuspend s s) ∧
     (∀ e, s.ldr.erase = some e → e.susp = true → s.ldr.transOn = false → s.readWaits = false →
       Gives .eraseResume s
         { s with ldr := { s.ldr with erase := some { e with susp := false, suspAt := none, runFrom := s.eng2 } } }) ∧
     (s.ldr.erase = none → Gives .eraseResume s s ∧ Gives .eraseSuspend s s))


/-! ## Power (14) -/

/-- R34, R269, R270, R271: a mode command or APPLY enters its window's posted queue, and acts as it is applied at a SLOW_CLK edge. While a
transition runs, or at an edge at which the power manager's request was served, it ends BUSY; a mode code above 4, a target code 0b11 and a set that is not valid end INVALID. From a block whose domains
are all On it asks every domain whose target is below On, in the order of R271; one for the mode the block is in is done at once.

R277, R278: the power manager's request and its release are pins, seen through two flops; a request seen at a SLOW_CLK edge is
served there when no transition runs, and its end is acknowledged.

The model's choice: log 40, log 87: a command whose set is the present one ends OK at the edge at which it acts; the write acts at
POSTED_WRITE_APPLY. -/
def Obligations.PowerCommands : Prop :=
  ∀ (s : State) (m : BitVec 3), s.snt.warmDue = false →
    let w := s.win 0
    let word := fun (x : Word) => ({ off := 0x2800, img := .plain, data := x, mask := 0xFFFFFFFF } : Posted)
    let posts := fun (x : Word) => s.answers (s.modWin 0 fun y => { y with
      posted := w.posted ++ [word x], postedAt := if w.posted = [] then s.slowEdge else w.postedAt })
    let at_ := s.modWin 0 fun y => { y with posted := w.posted.tail, appliedAt := some s.slowEdge }
    let applied := fun (P : State → Prop) => ∃ u, exec (.postedWriteApply 0) s = .next u ∧
      (u.win 0).posted = w.posted.tail ∧ (u.win 0).appliedAt = some s.slowEdge ∧ P u
    let shows := fun (n : Nat) => Gives (.postedWriteApply 0) s ((at_.modPwr fun p => { p with cstat := n }).refreshSlow)
    let want : Nat → DomSt := fun d =>
      if m = 0 then .on
      else if m = 1 then (if 8 ≤ d ∨ d = 4 then .ret else .on)
      else if m = 2 then (if d = 2 then .ret else .off)
      else .off
    let asks := fun (u : State) (f : Nat → DomSt) (r : Bool) (n : Nat) =>
      ∃ t, u.pwr.trans = some t ∧ t.ph = .asking ∧ t.ropen = r ∧ t.asked = n ∧ t.stopped = [] ∧ t.raise = [] ∧
        t.ask = strikeOrder.filter (fun d => decide (f d ≠ .on)) ∧ ∀ d ∈ strikeOrder, tgtOf t.tgt d = f d
    Gives (.powerManagerRequest m) s (s.modPwr fun p => { p with pmPin := p.pmPin.or (some m.toNat) }) ∧
    Gives .powerManagerRelease s (s.modPwr fun p => { p with pmPin := none }) ∧
    (s.regReady = true → s.mir.role ≠ .standby → w.posted.length < 4 →
      Gives (.mode m) s (posts (wd (1 + 4 * m.toNat))) ∧ Gives .applyTargets s (posts 2)) ∧
    (w.postedAt < s.slowEdge → w.appliedAt ≠ some s.slowEdge →
      let mode := w.posted.head? = some (word (wd (1 + 4 * m.toNat)))
      let apply_ := w.posted.head? = some (word 2)
      (s.pwr.trans.isSome = true → mode ∨ apply_ → shows 2) ∧
      (s.pwr.trans = none → s.pwr.lateWake = none → s.pwr.pmReq = none → s.pwr.warmWait = false → s.log.pfWant = 0 →
        (s.pwr.pmAt = some s.slowEdge → mode ∨ apply_ → shows 2) ∧
        (s.pwr.pmAt ≠ some s.slowEdge →
          (mode → 4 < m.toNat → shows 3) ∧
          (apply_ → (∃ d ∈ strikeOrder, s.dtgt d = 3) → shows 3) ∧
          (apply_ → ∀ d ∈ strikeOrder, d ≠ 2 → s.dtgt d = 0 → (s.dtgt 2 ≠ 0 ∨ (d ≠ 0 ∧ s.dtgt 0 ≠ 0)) → shows 3) ∧
          (apply_ → bit (s.reg 0x2808) 16 = true → (∃ d ∈ strikeOrder, s.dtgt d ≠ 2) → shows 3) ∧
          ((∀ d ∈ strikeOrder, s.dom d = .on) → s.pwr.ropen = false →
            (mode → m = 0 → applied fun u => u.pwr.trans = none ∧ u.pwr.cstat = 0) ∧
            (mode → m ≠ 0 → m.toNat ≤ 4 → (want 2 = .off → s.ldr.hdr = none) →
              applied fun u => asks u want (decide (m = 4)) s.slowEdge ∧ u.pwr.cstat = s.pwr.cstat) ∧
            (apply_ → ∀ f : Nat → DomSt, (∀ d ∈ strikeOrder, s.dtgt d = (f d).code) → (∃ d ∈ strikeOrder, f d ≠ .on) →
              (∀ d ∈ strikeOrder, d ≠ 2 → f d = .on → f 2 = .on ∧ (d = 0 ∨ f 0 = .on)) → bit (s.reg 0x2808) 16 = false →
              (f 2 = .off → s.ldr.hdr = none) → applied fun u => asks u f false s.slowEdge))))) ∧
    (s.pwr.trans = none → s.pwr.lateWake = none → s.log.pfWant = 0 → s.pwr.warmWait = false →
      (∃ u, exec .slowCopyRefresh s = .next u ∧ u.pwr.pmReq = s.pwr.pmMid ∧ u.pwr.pmMid = s.pwr.pmPin ∧ u.slowEdge = s.slowEdge + 1) ∧
      (s.pwr.pmMid = none → ∃ u, exec .slowCopyRefresh s = .next u ∧ u.pwr.trans = none ∧ u.pwr.pmAck = false ∧ u.pwr.pmOk = false) ∧
      (s.pwr.pmMid = some m.toNat → s.pwr.pmAck = false →
        (4 < m.toNat → ∃ u, exec .slowCopyRefresh s = .next u ∧ u.pwr.trans = none ∧ u.pwr.pmAck = true ∧ u.pwr.pmOk = false) ∧
        ((∀ d ∈ strikeOrder, s.dom d = .on) → s.pwr.ropen = false →
          (m = 0 → ∃ u, exec .slowCopyRefresh s = .next u ∧ u.pwr.trans = none ∧ u.pwr.pmAck = true ∧ u.pwr.pmOk = true) ∧
          (m ≠ 0 → m.toNat ≤ 4 → (want 2 = .off → s.ldr.hdr = none) →
            ∃ u, exec .slowCopyRefresh s = .next u ∧ asks u want (decide (m = 4)) (s.slowEdge + 1)))))

/-- R272, R274: a domain's answer, two SLOW_CLK cycles or more after it was asked and within the answer time, with its work finished.
One that agrees stops and the next is asked; after the last, the power requests go out at the next SLOW_CLK edge. A refusal, or an
answer that stays out too long (reason 5), is shown in PWR_REFUSE and counted; with no domain stopped the transition ends
REFUSED, else the domains are re-pitched, latest first, each after its delay.

R273, R276, R277: POWER_ACK puts the state that is asked for on the acknowledgement pins; seen, it puts a struck domain in its
target state, and after the last, and after the retention SRAM switch where it is to open, the transition is done, OK, and the clamps are
lifted; a switch to be closed is closed first; a domain that returns waits its pitch-table
delay from its acknowledgement, and is On with its return.

The model's choice: log 40, log 91: the undoing pitches a stopped domain again; the intake tick begins anew. -/
def Obligations.Strikes : Prop :=
  (∀ (s : State) (t : Trans) (d : Nat) (rest : List Nat), s.pwr.trans = some t → s.snt.warmDue = false →
     (t.ask = d :: rest → t.ph = .asking →
       (s.slowEdge < t.asked + 2 ∨ t.asked + max 3 (fld (s.reg 0x2824) 0 8) < s.slowEdge ∨
          (s.working d = true ∧ (8 ≤ d ∨ s.refusal d = none)) → Gives .domainAnswer s s) ∧
       (t.asked + 2 ≤ s.slowEdge → s.slowEdge ≤ t.asked + max 3 (fld (s.reg 0x2824) 0 8) →
         (s.working d = false → s.refusal d = none →
           let t' := { t with ask := rest, asked := s.slowEdge, stopped := d :: t.stopped }
           let clk := s.pwr.clkOff.filter (· ≠ d) ++ [d]
           (rest ≠ [] → Gives .domainAnswer s (s.modPwr fun p =>
             { p with clkOff := clk, stopAt := mPut p.stopAt d s.eng2, trans := some t' })) ∧
           (rest = [] →
             Gives .domainAnswer s (s.modPwr fun p =>
               { p with clkOff := clk, stopAt := mPut p.stopAt d s.eng2, trans := some { t' with
                   ph := .acking, await := strikeOrder.filter (fun k => decide (s.dom k ≠ tgtOf t.tgt k)), next := s.slowEdge + 1 } }))) ∧
         (∀ r, d ∈ strikeOrder → (s.working d = false ∨ d < 8) → s.refusal d = some r →
           (t.stopped ≠ [] →
             ∃ u, exec .domainAnswer s = .next u ∧ u.reg 0x2820 = wd (d + 64 * r + 1024) ∧ u.reg 0x2864 = s.reg 0x2864 + 1 ∧
               u.pwr.trans = some { t with ph := .undoing, next := s.slowEdge + 1 }) ∧
           (t.stopped = [] → t.boot = false → s.pwr.lateWake = none → s.pwr.pmReq = none → s.pwr.warmWait = false →
               s.log.pfWant = 0 → bit (s.reg 0x2838) 0 = false →
             ∃ u, exec .domainAnswer s = .next u ∧ u.reg 0x2820 = wd (d + 64 * r + 1024) ∧ u.reg 0x2864 = s.reg 0x2864 + 1 ∧
               u.pwr.trans = none ∧ u.pwr.cstat = 1))) ∧
       (d ∈ strikeOrder → t.asked + max 3 (fld (s.reg 0x2824) 0 8) ≤ s.slowEdge →
         ∃ u, exec .strikeAnswerTimeout s = .next u ∧ u.reg 0x2820 = wd (d + 64 * 5 + 1024) ∧
           u.reg 0x2864 = s.reg 0x2864 + 1 ∧ d ∈ u.pwr.clkOff ∧
           u.pwr.trans = some { t with ask := rest, stopped := d :: t.stopped, ph := .undoing, next := s.slowEdge + 1 }) ∧
       (s.slowEdge < t.asked + max 3 (fld (s.reg 0x2824) 0 8) → Gives .strikeAnswerTimeout s s)) ∧
     (t.stopped = d :: rest → t.ph = .undoing →
       (t.next ≤ s.slowEdge → d ≠ 1 → (d = 0 → s.ins = []) → (∀ x ∈ s.engs, d = 8 + x.1 / 16 → x.2.st.busy = false) →
         let rp := fld (s.reg (0x2880 + 4 * (rest.headD d))) 0 8
         Gives .repitch s ({ s with tickAt := if d = 0 then s.rank else s.tickAt }.modPwr fun p =>
           { p with clkOff := p.clkOff.filter (· ≠ d),
                    trans := some { t with stopped := rest, next := s.slowEdge + (if rp = 0 then 1 else rp) } })) ∧
       (s.slowEdge < t.next → Gives .repitch s s))) ∧
  (∀ (s : State) (t : Trans) (d : Nat), s.pwr.trans = some t → d < 40 → s.snt.warmDue = false →
     Gives (.powerAck d) s (s.modPwr fun p => { p with ackPin := mSet (fun _ => .on) p.ackPin d (tgtOf p.req d) }) ∧
     (t.ph = .acking → d ∈ t.await → d ≠ 5 → t.next ≤ s.slowEdge → tgtOf s.pwr.ack d = tgtOf t.tgt d → (∀ k < 64, (s.dst (512 + k)).offer = none) →
       let u := s.powerAck d
       u.dom d = tgtOf t.tgt d ∧
       (t.await.filter (· ≠ d) ≠ [] → (∀ k, k ≠ d → u.dom k = s.dom k) ∧ u.pwr.trans = some { t with await := t.await.filter (· ≠ d) }) ∧
       (t.await.filter (· ≠ d) = [] → t.ropen = true → s.pwr.ropen = false →
         tgtOf u.pwr.req 5 = .off ∧
           u.pwr.trans = some { t with await := [5], next := s.slowEdge }) ∧
       (t.await.filter (· ≠ d) = [] → t.ropen = false ∨ s.pwr.ropen = true → t.boot = false → s.pwr.warmWait = false →
         u.pwr.trans = none ∧ u.pwr.cstat = 0 ∧ u.pwr.clkOff = [] ∧ u.pwr.ropen = s.pwr.ropen)) ∧
     (t.ph = .acking → t.await = [5] → tgtOf s.pwr.ack 5 = .off → t.boot = false → s.pwr.warmWait = false →
       (s.powerAck 5).pwr.trans = none ∧ (s.powerAck 5).pwr.cstat = 0 ∧ (s.powerAck 5).pwr.clkOff = [] ∧
         (s.powerAck 5).pwr.ropen = true ∧ (s.powerAck 5).ldr.image = []) ∧
     (∀ rest, t.ph = .raising → t.raise = 5 :: rest → tgtOf s.pwr.ack 5 = .on → rest ≠ [] →
       (s.powerAck 5).pwr.ropen = false ∧ (s.powerAck 5).pwr.trans = some { t with raise := rest } ∧
         tgtOf (s.powerAck 5).pwr.req (rest.headD 0) = .on) ∧
     (∀ rest, t.ph = .raising → t.raise = d :: rest → d ≠ 5 →
       (t.acked = [] → tgtOf s.pwr.ack d = .on →
         s.powerAck d = s.modPwr fun p =>
           { p with trans := some { t with
               acked := [d], next := s.slowEdge + fld (s.reg (0x2880 + 4 * d)) (if s.dom d = .off then 16 else 8) 8 } }) ∧
       (t.acked = [d] → s.slowEdge < t.next → Gives (.domainReturn d) s s) ∧
       (t.acked = [d] → t.next ≤ s.slowEdge → (d = 1 → s.dom 1 ≠ .ret) → (d = 0 → s.ldr.phase ≠ .opened) → s.log.pfWant = 0 →
         (rest ≠ [] →
           ∃ u, exec (.domainReturn d) s = .next u ∧ u.dom d = .on ∧ (∀ k, k ≠ d → u.dom k = s.dom k) ∧
             d ∉ u.pwr.clkOff ∧ u.pwr.trans = some { t with raise := rest, acked := [] } ∧ tgtOf u.pwr.req (rest.headD d) = .on) ∧
         (rest = [] → t.cold = false → (∀ k ∈ strikeOrder, tgtOf t.tgt k = .on) → (∀ k, k ≠ d → s.dom k = .on) →
             t.ropen = false → t.boot = false → s.pwr.lateWake = none → s.pwr.pmReq = none → s.pwr.warmWait = false →
           ∃ u, exec (.domainReturn d) s = .next u ∧ u.dom d = .on ∧ u.pwr.trans = none ∧ u.pwr.cstat = 0))))

/-- R33, R279: with no transition and a domain not On, an enabled wake that matches shows its source in PWR_WSTAT, counts and
starts to raise every domain that is not On, the last of the order first, an open retention SRAM switch before them; one that does not match does nothing. A detector
that is enabled acknowledges its address (log 101: one that is not acknowledges none). A SLOW_CLK edge copies every lantern
register. -/
def Obligations.WakesAndSlowEdges : Prop :=
  ∀ (s : State) (a : BitVec 7) (l : Bool), s.snt.warmDue = false → s.pwr.lateWake = none →
    let en := s.reg 0x2830
    let woken := fun (src : Nat) (u : State) =>
      u.reg 0x2834 = wd (src + 4) ∧ u.reg 0x2868 = s.reg 0x2868 + 1 ∧
        ∃ t, u.pwr.trans = some t ∧ t.ph = .raising ∧ t.wake = true ∧ t.tgt = [] ∧ t.acked = [] ∧
          t.raise = (if s.pwr.ropen then [5] else []) ++ (strikeOrder.filter fun d => decide (s.dom d ≠ .on)).reverse ∧ tgtOf u.pwr.req (t.raise.headD 0) = .on
    (bit en 0 = false ∨ a.toNat ≠ fld (s.reg 0x282C) 0 7 → Gives (.i2cWake a) s (s.modPwr fun p => { p with i2cAck := false })) ∧
    (bit en 1 = false ∨ l = s.pwr.wakeIn ∨ l = bit en 4 →
      Gives (.wakeIn l) s (s.modPwr fun p => { p with wakeIn := l })) ∧
    (s.pwr.trans = none → fld en 5 3 = 0 → (∃ d ∈ strikeOrder, s.dom d ≠ .on) → (∀ q, s.pwr.lastWake = some q → q.at_ ≠ s.slowEdge) →
      (bit en 0 = true → a.toNat = fld (s.reg 0x282C) 0 7 → ∃ u, exec (.i2cWake a) s = .next u ∧ woken 0 u ∧ u.pwr.i2cAck = true) ∧
      (bit en 1 = true → l ≠ s.pwr.wakeIn → l ≠ bit en 4 →
        ∃ u, exec (.wakeIn l) s = .next u ∧ woken 1 u ∧ u.pwr.wakeIn = l)) ∧
    (s.pwr.trans = none → s.pwr.pmMid = none → s.log.pfWant = 0 →
      ∃ u, exec .slowCopyRefresh s = .next u ∧ u.slowEdge = s.slowEdge + 1 ∧
        (s.mir.role ≠ .primary → u.log.slowRank = s.rank) ∧ ∀ k ∈ lanOffs, mGet slowDef u.slow k = u.liveReg k)

/-! ## The mirror (15) -/

/-- R281, R282, R289: the link goes up and down; a paired block sends a HEARTBEAT every hbp and a Solo one a HELLO every 3200
RANK_CLK cycles (the model's nominal 1 us); a frame whose CRC or format is wrong is counted and discarded, whatever the role, and none
arrives while the link is down.

R283, R284: a HELLO pairs a Solo block by the first rule that applies: another epoch refuses; one that has served leads one
that has not; of two that have, the one that holds FENCE leads; of two that have not, the one strapped Primary leads. A HELLO that
comes to a standby sends it back to Resync, and it answers with its own.

The model's choice: log 36, log 56, log 63, log 74, log 139: frame numbers from 1 at a pairing; the roles at the pairing; what the standby
clears; HELLO once in 3,200 cycles; a HELLO at a standby. -/
def Obligations.MirrorLinkAndPairing : Prop :=
  (∀ (s : State) (h : HelloBody) (b : BeatBody) (f : Frame), s.snt.warmDue = false →
     let m := s.mir
     let up := m.link = true ∧ s.domStill 3 = false
     let paired := m.role = .primary ∨ m.role = .standby ∨ m.role = .resync
     let hbp := fld (s.reg 0x2C04) 0 8
     let flags := if m.behind then 1 else 0
     (∀ p ∈ ([(.linkUp, true), (.linkDown, false)] : List (Instr × Bool)),
       (s.domStill 3 = true ∨ m.link = p.2 → exec p.1 s = .next s) ∧
       (s.domStill 3 = false → m.link ≠ p.2 → bit (s.reg 0x2C00) 7 = false →
         exec p.1 s = .next { s with mir := { m with link := p.2 } }) ∧
       (s.domStill 3 = false → m.link ≠ p.2 → bit (s.reg 0x2C00) 7 = true → s.serving = true → (s.src 0x5A14).q = [] →
         ∃ u, exec p.1 s = .next u ∧ u.mir.link = p.2 ∧ (u.src 0x5A14).q = [({} : Inst)])) ∧
     (up → paired → m.lastTx + 64 * (if hbp = 0 then 1 else hbp) ≤ s.rank →
       exec .heartbeatPeriod s = .next { s.bump 0x2C20 with
         mir := { m with lastTx := s.rank, tx := some { kind := 3, flags := flags, body := [wd m.role.code, m.rxseq, 0] } } }) ∧
     (up → m.role = .solo → m.helloAt + 3200 ≤ s.rank →
       exec .heartbeatPeriod s = .next { s.bump 0x2C20 with
         mir := { m with helloAt := s.rank, tx := some { kind := 4, flags := flags, body :=
           [wd (1 + (if m.strap then 256 else 0) + (if m.served then 512 else 0) + (if m.fence then 1024 else 0)), 0, s.ldr.epoch] } } }) ∧
     (¬up ∨ m.role = .off ∨ m.role = .takeover → exec .heartbeatPeriod s = .next s) ∧
     (up → m.role ≠ .off →
       let counts := fun (c : Instr) => exec c s = .next (s.bump 0x2C24)
       (h.good = false → counts (.hello h)) ∧ (b.good = false → counts (.heartbeat b)) ∧ counts (.leaveFrame false) ∧
       (f.good = false ∨ f.entries = [] ∨ 16 < f.entries.length → counts (.journal f) ∧ counts (.snapshot f))) ∧
     (¬up ∨ m.role = .off →
       ∀ c ∈ ([.hello h, .heartbeat b, .leaveFrame false, .leaveFrame true, .journal f, .snapshot f] : List Instr), exec c s = .next s)) ∧
  (∀ (s : State) (h : HelloBody), s.snt.warmDue = false → s.mir.link = true → s.domStill 3 = false → h.good = true →
     let m := s.mir
     let refused := fun (n : Nat) =>
       ∃ u, exec (.hello h) s = .next u ∧ u.mir = { m with cause := n, seen := true } ∧ u.srcs = s.srcs
     let leads := exec (.hello h) s = .next { s with
         mir := { m with role := .primary, journal := [], behind := false, lapsed := false, fseq := 1, ackseq := 0, snapOn := true,
                         snapLeft := 4593, lastRx := s.rank, lastTx := s.rank } }
     let follows := ∃ u, exec (.hello h) s = .next u ∧ u.mir.role = .resync ∧ u.mir.rxseq = 0 ∧ u.mir.served = false ∧ u.srcs = [] ∧
       u.ctxs = [] ∧ u.locks = [] ∧ u.clusters = [] ∧ u.ins = s.ins ∧ u.bases = s.bases ∧ u.tbl = s.tbl ∧ u.regs = s.regs
     (m.role ≠ .solo → (m.role ≠ .standby ∧ m.role ≠ .resync) ∨ h.epoch ≠ s.ldr.epoch ∨ h.served = false → exec (.hello h) s = .next s) ∧
     (m.role = .standby ∨ m.role = .resync → h.epoch = s.ldr.epoch → h.served = true →
       ∃ u, exec (.hello h) s = .next u ∧ u.mir.role = .resync ∧ u.mir.rxseq = 0 ∧ u.mir.psrc = [] ∧ u.srcs = [] ∧ u.ins = s.ins ∧
         u.reg 0x2C20 = s.reg 0x2C20 + 1 ∧ ∃ x, u.mir.tx = some x ∧ x.kind = 4) ∧
     (m.role = .solo →
       (h.epoch ≠ s.ldr.epoch → refused 5) ∧
       (h.epoch = s.ldr.epoch →
         (m.served = true → h.served = false → leads) ∧
         (m.served = false → h.served = true → follows) ∧
         (m.served = true → h.served = true →
           (m.fence = h.fence → refused 4) ∧ (m.fence = true → h.fence = false → leads) ∧ (m.fence = false → h.fence = true → follows)) ∧
         (m.served = false → h.served = false →
           (m.strap = h.pairRole → refused 4) ∧ (m.strap = true → h.pairRole = false → leads) ∧
           (m.strap = false → h.pairRole = true → follows)))))

/-- R285, R286, R287, R293: the journal both ways. A Standby applies the frame that is next and asks once for a gap to be filled
again; a Resync block with the last SNAPSHOT frame is Standby once the journal held meanwhile has come; a Primary drops what is acknowledged, sends again after a nak,
sends the snapshot and then its oldest unsent entries, 16 to a frame, and rises behind when an entry is late.

The model's choice: log 72, log 73, log 140: what a standby keeps of an entry, and where it goes; what ends the resync. -/
def Obligations.MirrorJournal : Prop :=
  ∀ (s : State) (f : Frame) (b : BeatBody), s.snt.warmDue = false → s.mir.link = true → s.domStill 3 = false →
    let m := s.mir
    let flags := if m.behind then 1 else 0
    let slag := fld (s.reg 0x2C04) 20 8
    let after := if m.role = .resync ∧ m.snapGot = true then { m with role := .standby, snapGot := false } else m
    let late := fun (x : JItem) => x.fseq = none ∧ x.at_ + 64 * (if slag = 0 then 1 else slag) < s.rank
    (m.role = .standby ∨ m.role = .resync → frameGood f = true →
      (∀ p n held dest seq pay, p < 0x5A40 → f.fseq = m.rxseq + 1 → f.entries = [.inst p n held dest seq pay] →
        exec (.journal f) s = .next { s with mir := { after with
          rxseq := f.fseq, gapped := false, psrc := mSet (fun _ => (0, 0, 0, 0, 0)) m.psrc p (n, held, dest, seq % 65536, pay) } }) ∧
      (∀ n hd oc bu e, n < 64 → f.fseq = m.rxseq + 1 → f.entries = [.lock n hd oc bu e] →
        exec (.journal f) s = .next { s with mir := { after with
          rxseq := f.fseq, gapped := false, plock := mSet (fun _ => (false, false, false, 0)) m.plock n (hd, oc, bu, e) } }) ∧
      (∀ n c ofs turns, n < 16 → f.fseq = m.rxseq + 1 → f.entries = [.base n c ofs turns] →
        ∃ u, exec (.journal f) s = .next u ∧ u.mir = { after with rxseq := f.fseq, gapped := false } ∧
          u.reg (0x103C + 0x40 * n) = ofs ∧ hi32 (u.base n).ap = turns ∧ ∀ k, k ≠ n → u.base k = s.base k) ∧
      (∀ t w k v, tblHas t k = true → w < 16 → ¬((t = 0x19 ∨ t = 0x1A) ∧ w % 2 = 0) → f.fseq = m.rxseq + 1 → f.entries = [.cnt t w k v] →
        exec (.journal f) s = .next { (s.setTw t k w (s.tw t k w + lo32 v)) with mir := { after with rxseq := f.fseq, gapped := false } }) ∧
      (∀ t w k v, tblHas t k = true → w < 16 → w % 2 = 0 → t = 0x19 ∨ t = 0x1A → f.fseq = m.rxseq + 1 → f.entries = [.cnt t w k v] →
        ∃ u, exec (.journal f) s = .next u ∧ u.mir = { after with rxseq := f.fseq, gapped := false } ∧ u.tw64 t k w = s.tw64 t k w + v) ∧
      (f.fseq ≠ m.rxseq + 1 → m.gapped = true → exec (.journal f) s = .next s) ∧
      (f.fseq ≠ m.rxseq + 1 → m.gapped = false →
        exec (.journal f) s = .next { s.bump 0x2C20 with mir := { m with
          gapped := true, tx := some { kind := 3, flags := flags, body := [wd (m.role.code + 256), m.rxseq, 0] } } })) ∧
    (m.role = .resync → frameGood f = true → f.fseq = m.rxseq + 1 →
      (∀ p n held dest seq pay, p < 0x5A40 → f.entries = [.inst p n held dest seq pay] →
        exec (.snapshot f) s = .next { s with mir := { m with
          rxseq := f.fseq, gapped := false, psrc := mSet (fun _ => (0, 0, 0, 0, 0)) m.psrc p (n, held, dest, seq % 65536, pay),
          snapGot := m.snapGot || f.last } }) ∧
      (∀ t w k v, tblHas t k = true → w < 16 → f.entries = [.cnt t w k v] →
        exec (.snapshot f) s = .next { (s.setTw t k w (lo32 v)) with mir := { m with
          rxseq := f.fseq, gapped := false, snapGot := m.snapGot || f.last } })) ∧
    (m.role ≠ .off → m.role ≠ .resync → frameGood f = true → exec (.snapshot f) s = .next s) ∧
    (m.role = .standby ∨ m.role = .resync → b.good = true → exec (.heartbeat b) s = .next { s with mir := { after with lastRx := s.rank } }) ∧
    (m.role = .primary →
      (b.good = true →
        let a := if (b.ackseq - m.ackseq).toNat < 2 ^ 31 then b.ackseq else m.ackseq
        let n := if b.nak then (m.fseq - 1 - a).toNat else 0
        ∃ u, exec (.heartbeat b) s = .next u ∧ u.mir.lastRx = s.rank ∧ u.mir.ackseq = a ∧
          (∀ x, x ∈ u.mir.journal ↔ x ∈ m.journal ∧ ∀ k, x.fseq = some k → 2 ^ 31 ≤ (b.ackseq - k).toNat) ∧
          (n ≠ 0 → ∃ x, u.mir.tx = some x ∧ x.fseq = m.fseq - 1 ∧ x.flags = flags + 2) ∧
          u.reg 0x2C20 = s.reg 0x2C20 + wd n ∧ u.reg 0x2C28 = s.reg 0x2C28 + wd n) ∧
      (m.snapOn = true → 0 < m.snapLeft →
        ∃ u x, exec .journalSend s = .next u ∧ u.mir.tx = some x ∧ x.kind = 2 ∧ x.fseq = m.fseq ∧ x.entries.length = 16 ∧
          u.mir.fseq = m.fseq + 1 ∧ u.mir.snapLeft = m.snapLeft - 1 ∧ u.mir.journal = m.journal ∧ u.reg 0x2C20 = s.reg 0x2C20 + 1) ∧
      (m.snapOn = false ∨ m.snapLeft = 0 →
        let l := (m.journal.filter fun x => decide (x.fseq = none)).take 16
        (l = [] → exec .journalSend s = .next s) ∧
        (l ≠ [] →
          ∃ u, exec .journalSend s = .next u ∧
            u.mir.tx = some { kind := 1, flags := flags, fseq := m.fseq, entries := l.map JItem.e } ∧
            u.mir.fseq = m.fseq + 1 ∧ u.mir.journal.map JItem.e = m.journal.map JItem.e ∧
            (u.mir.journal.filter fun x => decide (x.fseq = none)) = (m.journal.filter fun x => decide (x.fseq = none)).drop 16 ∧
            u.reg 0x2C20 = s.reg 0x2C20 + 1)) ∧
      (m.behind = false → (∃ x ∈ m.journal, late x) →
        exec .sendLagExpiry s = .next { s.bump 0x2C2C with mir := { m with behind := true, lapsed := true } }) ∧
      (m.behind = true ∨ (∀ x ∈ m.journal, ¬late x) → exec .sendLagExpiry s = .next s)) ∧
    (m.role ≠ .primary → exec .journalSend s = .next s ∧ exec .sendLagExpiry s = .next s)

/-- R289, R290, R291, R292, R293: a partner is lost when its HEARTBEATs stay out or its LEAVE comes, or on LEAVE. A Primary goes
on as Solo; a Standby, and a Resync block with rtake = 1, takes over and shows FENCE; without rtake it is given up in the
safe state, as when FENCE_ACK stays out. After FENCE_ACK 8 sources are visited at an edge, each journaled one Pending again, and
then the block opens as Solo.

The model's choice: log 35, log 37: which losses count and raise; what a takeover makes of the journaled instances. -/
def Obligations.MirrorLoss : Prop :=
  ∀ (s : State), s.snt.warmDue = false → s.domStill 3 = false →
    let m := s.mir
    let hbp := fld (s.reg 0x2C04) 0 8
    let miss := fld (s.reg 0x2C04) 8 3
    let ftmo := fld (s.reg 0x2C04) 12 8
    let paired := m.role = .primary ∨ m.role = .standby ∨ m.role = .resync
    let gone := m.lastRx + 64 * (if hbp = 0 then 1 else hbp) * (if miss = 0 then 1 else miss) ≤ s.rank
    (¬paired ∨ ¬gone → exec .partnerLoss s = .next s) ∧
    (¬paired → exec (.leaveFrame true) s = .next s ∧ (s.regReady = true → exec .leave s = .next (s.answers s))) ∧
    (∀ p ∈ ([(.partnerLoss, 1, gone), (.leaveFrame true, 3, m.link = true), (.leave, 3, s.regReady = true)] : List (Instr × Nat × Prop)), p.2.2 →
      (m.role = .primary → ∃ u, exec p.1 s = .next u ∧ u.mir.role = .solo ∧ u.mir.journal = [] ∧ u.mir.cause = p.2.1 ∧
        u.reg 0x2C34 = s.reg 0x2C34 + 1 ∧ u.serving = s.serving) ∧
      (m.role = .standby ∨ (m.role = .resync ∧ bit (s.reg 0x2C00) 6 = true) →
        ∃ u, exec p.1 s = .next u ∧ u.mir.role = .takeover ∧ u.mir.fence = true ∧ u.mir.fenceAt = s.rank ∧ u.mir.fto = false ∧
          u.mir.cause = p.2.1 ∧ u.reg 0x2C34 = s.reg 0x2C34 + 1) ∧
      (m.role = .resync → bit (s.reg 0x2C00) 6 = false →
        ∃ u, exec p.1 s = .next u ∧ u.mir.role = .takeover ∧ u.mir.fto = true ∧ u.snt.safe = true ∧
          u.reg 0x2C34 = s.reg 0x2C34 + 1)) ∧
    (paired → s.regReady = true → ∃ u, exec .leave s = .next u ∧ u.mir.tx = some { kind := 5, flags := if m.behind then 1 else 0, body := [0, 0, 0] }) ∧
    (m.fence = false ∨ m.fack = true → exec .fenceAck s = .next s) ∧
    (m.fence = true → m.fack = false → (m.role ≠ .takeover ∨ m.fto = true) →
      exec .fenceAck s = .next { s with mir := { m with fack := true } }) ∧
    (m.fence = true → m.fack = false → m.role = .takeover → m.fto = false →
      (m.plock = [] → exec .fenceAck s = .next { s with mir := { m with fack := true, takeAt := some 0 } }) ∧
      (∀ n oc bu e, n < 64 → m.plock = [(n, true, oc, bu, e)] →
        ∃ u, exec .fenceAck s = .next u ∧ u.mir = { m with fack := true, takeAt := some 0, plock := [] } ∧
          (u.lock n).last = (if bu then 3 else 2) ∧ u.tw 0x12 n (if bu then 4 else 3) = s.tw 0x12 n (if bu then 4 else 3) + 1 ∧
          (bit (s.reg 0x1C00) 2 = false → u.srcs = s.srcs)) ∧
      (m.fenceAt + 64 * (if ftmo = 0 then 1 else ftmo) ≤ s.rank →
        ∃ u, exec .fenceTimeout s = .next u ∧ u.mir.role = .takeover ∧ u.mir.fto = true ∧ u.snt.safe = true ∧ u.mir.cause = 2 ∧
          u.reg 0x2C40 = s.reg 0x2C40 + 1) ∧
      (s.rank < m.fenceAt + 64 * (if ftmo = 0 then 1 else ftmo) → exec .fenceTimeout s = .next s)) ∧
    (∀ t, m.takeAt = some t → m.role = .takeover →
      (t < 0x5A40 → exec .takeoverOpen s = .next s ∧
        (m.psrc = [] → s.takeVisits = { s with mir := { m with takeAt := some (t + 8) } }) ∧
        (∀ p n held dest seq pay, t ≤ p → p < t + 8 → isCtx p = false → s.isC0 p = false → (s.src p).q = [] →
            m.psrc = [(p, n, held, dest, seq, pay)] →
          let u := s.takeVisits
          u.mir.takeAt = some (t + 8) ∧ u.mir.role = .takeover ∧ (u.src p).seq = BitVec.ofNat 16 seq ∧
            (n = 0 → (u.src p).st = (s.src p).st ∧ u.reg 0x2C3C = s.reg 0x2C3C) ∧
            (n ≠ 0 → (u.src p).st = .pending ∧ (u.src p).replay = true ∧ (u.src p).q.length = max 1 held ∧
              ((u.src p).q.head?.map Inst.payload) = some pay ∧ u.reg 0x2C3C = s.reg 0x2C3C + 1))) ∧
      (0x5A40 ≤ t → (∀ k < 4096, bit (s.ccfg k) 0 = false) → s.ins = [] →
        ∃ u, exec .takeoverOpen s = .next u ∧ u.mir.role = .solo ∧ (bit (s.reg 0x2C00) 7 = false → u.mir.served = m.served) ∧ u.mir.takeAt = none ∧
          u.mir.psrc = [] ∧ u.reg 0x2C38 = s.reg 0x2C38 + 1)) ∧
    (s.regReady = true → m.role = .takeover → m.fto = true →
      exec .rejoin s = .next (s.answers { s with mir := { m with role := .solo, fto := false, served := false, helloAt := s.rank } })) ∧
    (s.regReady = true → m.role ≠ .standby → (m.role ≠ .takeover ∨ m.fto = false) → exec .rejoin s = .next (s.answers s))

/-! ## The Sentinel (16) -/

/-- R305, R306, R307, R308, R309: SNT_CMD. SAFE enters the safe state and queues every lock's safe-write set; LEAVE_SAFE leaves it
but at the edge of its cause, while PWR_CYCLE_REQ shows, or while a takeover waits for FENCE_ACK; WARM is a warm reset;
PCREQ shows PWR_CYCLE_REQ once; REINIT waits for its edge's faults, then counts as a step 2 and carries it out without
changing s. R28, R29: with D_CORE not answering, each is an access error DOMAIN_OFF and does nothing else.

The model's choice: log 18, log 31, log 32, log 33: a cause in a standing safe state, a warm reset at its command's edge, REINIT and
PCREQ. -/
def Obligations.SentinelCommands : Prop :=
  ∀ (s : State), s.snt.warmDue = false →
    let gives := fun (c : Instr) (t : State) => Gives c s (s.answers t)
    (s.regReady = true → s.domStill 0 = true →
      ∀ c ∈ ([.safe, .leaveSafe, .warm, .pcreq] : List Instr),
        ∃ u, exec c s = .next u ∧ u.resp = { id := s.regTag, data := 0, err := true, code := 3 } ∧ u.reg 0x33D4 = 0x133008 ∧
          u.reg 0x33C8 = s.reg 0x33C8 + 1 ∧ u.snt = s.snt ∧ u.safeQ = s.safeQ) ∧
    (PortActs s 0 →
      (s.snt.safe = true → gives .safe { s with snt := { s.snt with entered := some s.rank } }) ∧
      (s.snt.safe = false →
        ∃ u, exec .safe s = .next u ∧ u.snt.safe = true ∧ u.snt.entered = some s.rank ∧
          (bit (s.reg 0x3000) 3 = false → s.snt.left ≠ some s.rank →
            u.safeQ = s.safeQ ++ (List.range 64).flatMap fun l =>
              let n := min (fld (s.tw 0x12 l 1) 0 3) 5
              (List.range n).map fun j =>
                { addr := s.tw 0x12 l (6 + 2 * j), data := s.tw 0x12 l (7 + 2 * j), last := decide (j + 1 = n), seq := none, lock := l,
                  once := true })) ∧
      (s.snt.safe = true → s.snt.pcreq = false → (s.mir.role ≠ .takeover ∨ s.mir.fack = true) → s.snt.entered ≠ some s.rank →
        gives .leaveSafe { s with snt := { s.snt with safe := false, left := some s.rank } }) ∧
      (s.snt.safe = false ∨ s.snt.pcreq = true ∨ (s.mir.role = .takeover ∧ s.mir.fack = false) ∨ s.snt.entered = some s.rank →
        gives .leaveSafe s) ∧
      (s.pwr.trans = none →
        ∃ u, exec .warm s = .next u ∧ u.rank = 0 ∧ u.srcs = [] ∧ u.engs = [] ∧ u.bases = [] ∧ u.ctxs = [] ∧ u.mir.role = .off ∧
          u.ldr.phase = .header ∧ u.ldr.nvm = s.ldr.nvm ∧ u.snt.warmDue = false ∧ u.pending = s.pending ∧ u.slowEdge = s.slowEdge) ∧
      (∀ t, s.pwr.trans = some t → t.ph = .asking → t.stopped ≠ [] →
        ∃ u, exec .warm s = .next u ∧ u.pwr.warmWait = true ∧ u.reg 0x2820 = wd (5 + 64 * 7 + 1024) ∧
          u.pwr.trans = some { t with ph := .undoing, next := s.slowEdge + 1 } ∧ u.rank = s.rank) ∧
      ((s.func 5408).step = 4 → gives .pcreq s) ∧
      ((s.func 5408).step ≠ 4 →
        ∃ u, exec .pcreq s = .next u ∧ u.snt.pcreq = true ∧ u.snt.safe = true ∧ (u.func 5408).step = 4 ∧ (u.func 5408).tmr = none ∧
          (u.func 5408).busy = false ∧ u.reg 0x30AC = s.reg 0x30AC + 1) ∧
      (∀ f, f < 5409 →
        ∃ u, exec (.reinit f) s = .next u ∧ u.edge.reinits = s.edge.reinits ++ [f] ∧ u.snt = s.snt ∧ u.engs = s.engs ∧
          (f < 5152 ∨ f = 5408 → u.tbl = s.tbl) ∧ (5152 ≤ f → f < 5408 → bit (u.ten (f - 5152) 0) 0 = false ∧ u.flush = s.flush))) ∧
    (∀ f, f < 5409 → s.edge.reinits = [f] → (s.func f).busy = false → (s.func f).stepAt ≠ some s.rank → bit (s.reg 0x3000) 1 = false →
      let u := s.dueReinits
      u.edge.reinits = [] ∧ u.reg 0x30A4 = s.reg 0x30A4 + 1 ∧ (u.func f).step = (s.func f).step ∧
      (f < 512 → (s.eng f).st = .idle ∨ (s.eng f).st = .stopped → (∀ o ∈ s.occs, o.2.engine ≠ some f) → s.seqsOf f = [] →
        (u.eng f).st = .fault ∧ (u.eng f).testAt = s.eng2 ∧ (u.eng f).regs = [] ∧ (u.eng f).acc = 0 ∧ (u.func f).busy = true ∧
          u.tw 0x18 f 3 = s.tw 0x18 f 3 + 1) ∧
      (4640 ≤ f → f < 5152 → (u.dst (f - 4640)).downFrom = some s.rank ∧ (u.func f).busy = true) ∧
      (5152 ≤ f → f < 5408 →
        bit (u.ten (f - 5152) 0) 0 = false ∧ (u.func f).busy = true ∧ (f - 5152, 0) ∈ u.flush ∧
          u.tw 0x14 (f - 5152) 14 = s.tw 0x14 (f - 5152) 14 + 1) ∧
      (f = 5408 → (u.func f).busy = true))

/-- R295, R296, R298, R302, R305: a detected device fault counts, shows in SNT_LAST_FLT and moves the device up its ladder: step 1,
a clock fault step 2, one within the timer of step 2 the warm reset. A step that runs absorbs it. When the step has ended the
escalation timer runs, and at its expiry s returns to 0; a failure found at step 2 escalates at once.

The model's choice: log 31, log 34: the device's warm reset at its edge; a failed step 1 of the device. -/
def Obligations.FaultsAndLadders : Prop :=
  ∀ (s : State) (g : Nat) (rt : Bool) (ck : Clock), s.snt.warmDue = false →
    let x := s.func 5408
    let top := fld (s.reg 0x3000) 5 2
    let found := ([(.clockFault ck, 0x09, 2), (.crcRecheck true, 0x0A, 1), (.scrub (.uncorrectable 5408 false rt), 0x01, 1),
      (.scrub (.uncorrectable g true rt), 0x02, 1)] : List (Instr × Nat × Nat))
    (s.domStill 0 = false → s.domStill 2 = false → (ck = .link → s.domStill 3 = false) → ∀ p ∈ found,
      (x.busy = false → x.tmr = none → x.step = 0 → p.2.2 ≤ top + 1 →
        ∃ u, exec p.1 s = .next u ∧ u.reg (0x3040 + 4 * p.2.1) = s.reg (0x3040 + 4 * p.2.1) + 1 ∧
          u.reg 0x300C = wd (p.2.1 + 32 * 5408 + 0x40000) ∧ u.tw 0x18 5408 2 = s.tw 0x18 5408 2 + 1 ∧
          u.tw 0x18 5408 3 = s.tw 0x18 5408 3 + 1 ∧ (u.func 5408).step = p.2.2 ∧ (u.func 5408).busy = true ∧
          u.reg (0x30A0 + 4 * (p.2.2 - 1)) = s.reg (0x30A0 + 4 * (p.2.2 - 1)) + 1) ∧
      (x.busy = true → x.step ≠ 3 →
        ∃ u, exec p.1 s = .next u ∧ u.reg (0x3040 + 4 * p.2.1) = s.reg (0x3040 + 4 * p.2.1) + 1 ∧
          u.tw 0x18 5408 2 = s.tw 0x18 5408 2 + 1 ∧ u.func 5408 = x) ∧
      (x.busy = false → x.tmr.isSome = true → x.step = 2 → 2 ≤ top → s.pwr.trans = none → s.seqs = [] →
        ∃ u, exec p.1 s = .next u ∧ u.rank = 0 ∧ u.srcs = [] ∧ u.ldr.phase = .header ∧ (u.func 5408).step = 3)) ∧
    (ck = .link → s.domStill 3 = true → Gives (.clockFault ck) s s) ∧
    Gives (.crcRecheck false) s s ∧ Gives (.scrub .clean) s s ∧ Gives (.scrub .corrected) s s ∧
    (g < 5409 →
      ((s.func g).tmr = none → Gives (.escalationTimerExpiry g) s s) ∧
      (∀ t, (s.func g).tmr = some t →
        (s.slowEdge < t + (s.func g).len → Gives (.escalationTimerExpiry g) s s) ∧
        (t + (s.func g).len ≤ s.slowEdge →
          ∃ u, exec (.escalationTimerExpiry g) s = .next u ∧ u.func g = { s.func g with step := 0, tmr := none } ∧
            ∀ k, k ≠ g → u.func k = s.func k))) ∧
    (g < 512 →
      ((s.dst g).downFrom = none → Gives (.targetReinitEnd g) s s) ∧
      (∀ d, (s.dst g).downFrom = some d → d + 3200 ≤ s.rank →
        let y := s.func (4640 + g)
        ∃ u, exec (.targetReinitEnd g) s = .next u ∧ u.dst g = { s.dst g with downFrom := none } ∧
          (y.cmd = true → u.func (4640 + g) = { y with busy := false, cmd := false, endAt := none }) ∧
          (y.cmd = false → y.step = 2 → u.func (4640 + g) =
            { y with busy := false, endAt := none, tmr := some s.slowEdge, len := 32 * fld (s.reg 0x3018) 16 16 }))) ∧
    (x.busy = false → Gives (.deviceStepEnd false) s s ∧ Gives (.deviceStepEnd true) s s) ∧
    (x.busy = true → x.cmd = true → ∃ u, exec (.deviceStepEnd false) s = .next u ∧
      u.func 5408 = { x with busy := false, cmd := false, endAt := none }) ∧
    (x.busy = true → x.cmd = false → x.step = 1 ∨ x.step = 2 →
      (∃ u, exec (.deviceStepEnd false) s = .next u ∧ (∀ b < 48, (u.arb (b + 1)).masked = []) ∧
        u.func 5408 = { x with busy := false, endAt := none, tmr := some s.slowEdge, len := 32 * fld (s.reg 0x3018) (16 * (x.step - 1)) 16 }) ∧
      (x.step = 2 → 2 ≤ top → s.pwr.trans = none → s.seqs = [] →
        ∃ u, exec (.deviceStepEnd true) s = .next u ∧ u.rank = 0 ∧ u.ldr.phase = .header ∧ (u.func 5408).step = 3))

/-! ## The recorder (17) -/

/-- R316, R318, R319, R324, R328, R333: an assembled record takes the next rseq and the open epoch and enters the Flysheet, over its
oldest of 8,192; while frozen the side buffer, which drops and counts when full; with dg = 1 the degraded area. A
read-back mismatch begins that area. A record of a tenant counts there. The side buffer drains in order. The CLEAR record of a
clear goes before the queue.

The model's choice (log 29, log 59, log 131): that record's rseq was taken as its clear began; RECORD_ASSEMBLY is the write of the record,
an ENG_CLK edge or more after its grant; the place where the read-back failed is not passed. -/
def Obligations.RecordAssembly : Prop :=
  ∀ (s : State) (r : Rec) (rest : List Rec), s.snt.warmDue = false →
    let l := s.log
    let due := s.log.asmAt + 8 ≤ s.eng2
    let r' := { r with rseq := l.rseq, epoch := s.ldr.epoch }
    let frz := bit (s.reg 0x3408) 0
    let gs := bit (s.reg 0x3400) 1 = false
    let after := fun (c : Instr) (f : Recorder → Prop) => ∃ u, exec c s = .next u ∧ f u.log
    let degraded := fun (w : Nat) =>
      ({ kind := 0x12, time := s.recTime, sub := s.recSub, d := [wd (64 * l.flyAt + 4 * w)], flags := 4, rseq := l.rseq + 1,
         epoch := s.ldr.epoch } : Rec)
    let took := fun (x : Recorder) => (s.mir.role ≠ .primary → x.reqs = rest) ∧ x.rseq = l.rseq + 1 ∧ x.asmAt = s.eng2
    (l.reqs = [] ∧ l.clearQ = none ∨ ¬due ∨ s.domStill 0 = true ∨ (l.drain = true ∧ frz = false) →
      ∀ back, Gives (.recordAssembly back) s s) ∧
    (l.reqs = r :: rest → l.clearQ = none → r.kind ≠ 0x11 → due → s.domStill 0 = false → l.tally = [] → rest.length ≤ 32 →
      (frz = false → l.drain = false → l.degr = false → l.fly.length < 8192 →
        after (.recordAssembly .good) fun x => took x ∧ x.fly = l.fly ++ [r'] ∧ x.area = l.area ∧ x.side = l.side) ∧
      (frz = false → l.drain = false → l.degr = false → 8192 ≤ l.fly.length → gs →
        after (.recordAssembly .good) fun x => took x ∧ x.fly = l.fly.drop 1 ++ [r'] ∧ x.area = l.area ∧ x.side = l.side) ∧
      (frz = false → l.drain = false → l.degr = true → l.area.length < 512 →
        ∀ back, after (.recordAssembly back) fun x =>
          took x ∧ x.area = l.area ++ [{ r' with flags := r.flags ||| 4 }] ∧ x.fly = l.fly ∧ x.side = l.side) ∧
      (frz = true → l.side.length < 256 →
        ∀ back, after (.recordAssembly back) fun x => took x ∧ x.side = l.side ++ [r'] ∧ x.fly = l.fly ∧ x.area = l.area) ∧
      (frz = true → 256 ≤ l.side.length →
        ∀ back, ∃ u, exec (.recordAssembly back) s = .next u ∧ u.log.side = l.side ∧ u.log.fly = l.fly ∧ u.log.rseq = l.rseq + 1 ∧
          u.reg 0x3428 = s.reg 0x3428 + 1) ∧
      (∀ w, frz = false → l.drain = false → l.degr = false → l.area.length < 512 → (s.func 5408).busy = true → (s.func 5408).step = 1 →
          l.fly.length < 8192 ∨ gs →
        ∃ u, exec (.recordAssembly (.bad w)) s = .next u ∧ u.log.degr = true ∧
          u.log.fly = (if l.fly.length < 8192 then l.fly else l.fly.drop 1) ∧ u.log.flyAt = l.flyAt ∧ u.reg 0x3438 = s.reg 0x3438 + 1 ∧
          u.log.gaspQ = l.gaspQ ++ [(s.slowEdge, { kind := r.kind, flags := 2, time := r.time, reason := r.reason, d := [] })] ∧
          u.log.area = l.area ++ [degraded w]) ∧
      (r.flags % 2 = 1 → r.tenant < 256 → frz = true → l.side.length < 256 →
        ∃ u, exec (.recordAssembly .good) s = .next u ∧ u.tw64 0x1A r.tenant 4 = s.tw64 0x1A r.tenant 4 + 1)) ∧
    (l.clearQ = some r → due → s.domStill 0 = false → r.kind = 0x11 → frz = false → l.drain = false → l.degr = false →
        l.fly.length < 8192 → l.tally = [] → l.reqs.length ≤ 32 →
      ∃ u j, exec (.recordAssembly .good) s = .next u ∧ u.log.clearQ = none ∧ u.log.rseq = l.rseq ∧
        (s.mir.role ≠ .primary → u.log.reqs = l.reqs) ∧
        u.log.fly = l.fly ++ [{ r with epoch := s.ldr.epoch }] ∧ u.ldr.jobs = s.ldr.jobs ++ [j] ∧ j.req = 1 ∧ j.use = .gsFirst l.rseq) ∧
    (l.drain = true → frz = false → l.sideAt + 8 ≤ s.eng2 → s.domStill 0 = false → l.side = r :: rest → l.degr = false → l.fly.length < 8192 →
      after .sideBufferDrain fun x =>
        x.side = rest ∧ x.fly = l.fly ++ [r] ∧ x.sideAt = s.eng2 ∧ x.drain = decide (rest ≠ []) ∧ x.rseq = l.rseq) ∧
    (l.drain = false ∨ frz = true ∨ s.eng2 < l.sideAt + 8 ∨ s.domStill 0 = true → Gives .sideBufferDrain s s)

/-- R242, R320, R337: a cursor command of a window with the recorder granted finds, among the records the window may see, the
oldest, the newest, the one the cursor names, or the first after it; the cursor moves to it and its words are copied. Without
one REC_STAT.found is 0. A window without the recorder draws the error MAP and is counted (R28, R230). Area 1 is read from NVM; its
end does the same with the records read.

The model's choice (log 130, log 133): rseq counts modulo 2^32, and what an area holds lies within half of that; a tenant's record is
copied as it is. -/
def Obligations.RecordCursors : Prop :=
  ∀ (s : State) (win : Nat) (base : Word), s.snt.warmDue = false → win < 257 →
    let granted := win = 0 ∨ bit (s.tw 0x14 (win - 1) 10) 16 = true
    let sees := fun (r : Rec) => win = 0 ∨ (r.flags % 2 = 1 ∧ r.tenant = win - 1)
    let cur := s.regW win 0x3480
    let ord := fun (q : Word) => (q - base).toNat
    let near := fun (l : List Rec) => ord cur < 2 ^ 31 ∧ ∀ q ∈ l, ord q.rseq < 2 ^ 31
    let ops := ([(fun a => .oldestRec win a, fun _ => True, fun r q => ord r ≤ ord q),
      (fun a => .newestRec win a, fun _ => True, fun r q => ord q ≤ ord r), (fun a => .readRec win a, fun r => r = cur, fun _ _ => True),
      (fun a => .nextRec win a, fun r => ord cur < ord r, fun r q => ord r ≤ ord q)]
        : List ((BitVec 2 → Instr) × (Word → Prop) × (Word → Word → Prop)))
    let shows := fun (c : Instr) (r : Rec) =>
      ∃ u, exec c s = .next u ∧ u.regW win 0x3480 = r.rseq ∧ (u.win win).recFound = true ∧ (u.win win).recBusy = false ∧
        ∀ k < 16, mGet (fun _ => 0#32) (u.win win).recWin k = (wordsOf r.bytes).getD k 0
    let shuts := fun (c : Instr) =>
      ∃ u, exec c s = .next u ∧ u.regW win 0x3480 = s.regW win 0x3480 ∧ (u.win win).recFound = false ∧ (u.win win).recWin = []
    let free := s.regReady = true ∧ s.domStill 0 = false ∧ (s.win win).recBusy = false ∧ (s.win win).recHeld = []
    (¬granted → free → ∀ p ∈ ops, ∀ a, ∃ u, exec (p.1 a) s = .next u ∧ u.resp = { id := s.regTag, data := 0, err := true, code := 6 } ∧
      u.regW win 0x33D4 = 0x163484 ∧ u.tw 0x14 (win - 1) 12 = s.tw 0x14 (win - 1) 12 + 1 ∧
      u.reg 0x200C = wd (0x3484 + 65536 + (win - 1) * 2 ^ 20 + 2 ^ 28) ∧ u.win win = s.win win) ∧
    (granted → free → ∀ p ∈ ops,
      (∀ b ∈ ([(0, s.log.fly ++ s.log.area ++ s.log.side), (2, s.log.gasp.map Prod.snd)] : List (BitVec 2 × List Rec)), near b.2 →
        (∀ r ∈ b.2, sees r → p.2.1 r.rseq → (∀ q ∈ b.2, sees q → p.2.1 q.rseq → p.2.2 r.rseq q.rseq) →
          (∀ q ∈ b.2, sees q → q.rseq = r.rseq → q = r) → shows (p.1 b.1) r) ∧
        ((∀ q ∈ b.2, sees q → ¬p.2.1 q.rseq) → shuts (p.1 b.1))) ∧
      (s.mir.role ≠ .standby → Gives (p.1 3) s (s.answers s)) ∧
      (s.region 5 = none → shuts (p.1 1)) ∧
      (s.region 5 ≠ none → ∃ u j, exec (p.1 1) s = .next u ∧ (u.win win).recBusy = true ∧ u.ldr.jobs = s.ldr.jobs ++ [j] ∧ j.req = 1)) ∧
    (∀ j op, s.ldr.jobs = [j] → j.use = .cursor win op 1 → j.steps = [] → (s.win win).recHeld = [] →
      (op = 1 → near (gsRecs j.got) → ∀ r ∈ gsRecs j.got, sees r → (∀ q ∈ gsRecs j.got, sees q → ord r.rseq ≤ ord q.rseq) →
        (∀ q ∈ gsRecs j.got, sees q → q.rseq = r.rseq → q = r) → shows (.cursorDone win) r) ∧
      (gsRecs j.got = [] → shuts (.cursorDone win))) ∧
    (s.ldr.jobs = [] → Gives (.cursorDone win) s s)

/-- R319, R321, R323, R324, R325, R327, R328, R335: the Groundsheet writer takes the lowest rseq it has not copied; ARM holds its arm for
32 SLOW_CLK cycles; CLEAR ends with the first status that applies, or begins; RESUME leaves the degraded area; a flush
command with ffl = 1 puts the newest 64 records that no flush block holds, in ascending rseq, into the next erased block, or counts as
lost when there is none; CKPT begins a checkpoint, or is skipped while one runs.

The model's choice (log 29, log 130): the clear takes the rseq of its CLEAR record as it begins; rseq counts modulo 2^32. -/
def Obligations.RecorderCommands : Prop :=
  ∀ (s : State) (base : Word), s.snt.warmDue = false → PortActs s 0 →
    let l := s.log
    let ord := fun (q : Word) => (q - base).toNat
    let all := l.fly ++ l.area ++ l.side
    let armed := ∃ t, l.armed = some t ∧ s.slowEdge < t + 32
    let gives := fun (c : Instr) (t : State) => Gives c s (s.answers t)
    let status := fun (n : Nat) => gives .clearGs { s with log := { l with armed := none, cstat := n } }
    let held := (s.flushAddrs.flatMap s.flushBlock).map Rec.rseq
    let prot := ∃ k < 4, ∃ r, s.protRec k = some r ∧ nfld (leNat (r.take 2)) 5 1 = 1
    let locked := ∃ k < 4, ∃ r, s.protRec k = some r ∧ nfld (leNat (r.take 2)) 5 1 = 1 ∧ k ∉ s.ldr.unl
    gives .armGs { s with log := { l with armed := some s.slowEdge } } ∧
    gives .resume { s with log := { l with armed := none, degr := false } } ∧
    (¬armed → status 1) ∧
    (armed → ¬prot → status 2) ∧
    (armed → locked → status 3) ∧
    (armed → prot → ¬locked → s.region 5 = none → status 4) ∧
    (armed → prot → ¬locked → s.region 5 ≠ none → l.clearing = true → status 5) ∧
    (armed → prot → ¬locked → s.region 5 ≠ none → l.clearing = false →
      ∃ u j, exec .clearGs s = .next u ∧ u.log.cstat = 0 ∧ u.log.clearing = true ∧ u.log.gsStop = l.gsStop ∧ u.log.rseq = l.rseq + 1 ∧
        u.ldr.jobs = s.ldr.jobs ++ [j] ∧ j.req = 1 ∧ j.use = .gsClear l.rseq) ∧
    (l.ckptOn = true → gives .ckpt { s.bump 0x3440 with log := { l with armed := none } }) ∧
    (l.ckptOn = false → s.region 7 ≠ none →
      ∃ u j, exec .ckpt s = .next u ∧ u.log.ckptOn = true ∧ u.log.ckptSec = 0 ∧ u.ldr.jobs = s.ldr.jobs ++ [j] ∧ j.req = 2) ∧
    (bit (s.reg 0x3400) 2 = false → l.flushWant = false → gives .recFlush { s with log := { l with armed := none } }) ∧
    (bit (s.reg 0x3400) 2 = true → s.flushRuns = false → s.ldr.phase = .opened → s.domStill 4 = false →
      let new := all.filter fun r => decide (r.rseq ∉ held)
      new ≠ [] →
      (∀ a, s.flushAddrs.find? (fun a => s.nvmBlank a 4096) = some a →
        ∃ u j rs, exec .recFlush s = .next u ∧ u.flushRuns = true ∧ u.log.flushWant = false ∧ u.reg 0x3430 = s.reg 0x3430 + 1 ∧
          u.ldr.jobs = s.ldr.jobs ++ [j] ∧ j.req = 1 ∧ j.use = .flush a rs false ∧ rs.length = min 64 new.length ∧
            (∀ q ∈ rs, ∃ r ∈ new, r.rseq = q) ∧
            ((∀ r ∈ all, ord r.rseq < 2 ^ 31) → (rs.map ord).Pairwise (· ≤ ·) ∧ ∀ r ∈ new, r.rseq ∉ rs → ∀ q ∈ rs, ord r.rseq ≤ ord q)) ∧
      ((∀ a ∈ s.flushAddrs, s.nvmBlank a 4096 = false) →
        ∃ u, exec .recFlush s = .next u ∧ u.flushRuns = false ∧ u.reg 0x3434 = s.reg 0x3434 + 1 ∧ u.ldr.jobs = s.ldr.jobs)) ∧
    (bit (s.reg 0x3400) 1 = false ∨ s.region 5 = none ∨ l.gsStop = true ∨ l.clearing = true ∨ 1024 ≤ l.gsN ∨ 1024 ≤ l.gsAt →
      Gives .groundsheetWrite s s) ∧
    (bit (s.reg 0x3400) 1 = true → s.region 5 ≠ none → l.gsStop = false → l.clearing = false → l.gsN < 1024 → l.gsAt < 1024 →
        s.ldr.jobs = [] → s.ldr.phase = .opened → s.domStill 4 = false → ord l.gsNext < 2 ^ 31 → (∀ r ∈ all, ord r.rseq < 2 ^ 31) →
      ∀ r ∈ all, ord l.gsNext ≤ ord r.rseq → (∀ q ∈ all, ord l.gsNext ≤ ord q.rseq → ord r.rseq ≤ ord q.rseq) →
        ∃ u j, exec .groundsheetWrite s = .next u ∧ u.ldr.jobs = [j] ∧ j.req = 1 ∧ j.use = .gsWrite r.rseq)

/-- R326, R329, R330, R331, R335: PFAIL waits as a last-gasp record, and with D_CORE On is assembled at once, and the newest 64 records go
to the next erased flush block, or D_NVM is asked for when it is not On; a last-gasp record is
written at the SLOW_CLK edge after its cause, in the next of 8 places; a second ends 32,768 SLOW_CLK cycles after the last:
the calendar and the operating time advance, the wake alarm wakes, a due checkpoint begins.

The model's choice: log 134: the PFAIL record passes its read-back. -/
def Obligations.LastGaspAndCalendar : Prop :=
  ∀ (s : State), s.snt.warmDue = false →
    let l := s.log
    let g : Rec := { kind := 0x0F, flags := 2, time := s.recTime, d := [s.liveReg 0x2804] }
    let n := l.opSec + (if s.domOn 0 then 1 else 0)
    let l' := { l with sec := l.sec + 1, secEdge := l.secEdge + 32768, opSec := n % 3600, opHour := (l.opHour + n / 3600) % 2 ^ 20,
                       ckptSec := l.ckptSec + 1 }
    let period := max 1 (fld (s.reg 0x3418) 0 16)
    (s.domOn 0 = false → Gives .pfail s { s with log := { l with gaspQ := l.gaspQ ++ [(s.slowEdge, g)] } }) ∧
    (s.domOn 0 = true → s.domOn 4 = true → bit (s.reg 0x3408) 0 = false → l.drain = false → l.degr = false → l.fly.length < 8192 →
        s.ldr.erase = none → s.ldr.transOn = false →
      let all := l.fly ++ [{ g with flags := 0, sub := s.recSub, rseq := l.rseq, epoch := s.ldr.epoch }]
      ((∀ a ∈ s.flushAddrs, s.nvmBlank a 4096 = false) →
        ∃ u, exec .pfail s = .next u ∧ u.log.gaspQ = l.gaspQ ++ [(s.slowEdge, g)] ∧ u.log.gsStop = true ∧ u.log.fly = all ∧
          u.reg 0x3434 = s.reg 0x3434 + 1) ∧
      (∀ a, s.ldr.jobs = [] → s.flushAddrs.find? (fun a => s.nvmBlank a 4096) = some a →
        ∃ u j rs, exec .pfail s = .next u ∧ u.log.fly = all ∧ u.ldr.jobs = [j] ∧ j.req = 3 ∧ j.use = .flush a rs true ∧
          rs.length = min 64 (all ++ l.area ++ l.side).length ∧ u.reg 0x3430 = s.reg 0x3430 + 1)) ∧
    (s.domOn 0 = true → s.domOn 4 = false → s.pwr.trans = none →
      ∃ u t, exec .pfail s = .next u ∧ u.log.gaspQ = l.gaspQ ++ [(s.slowEdge, g)] ∧ u.log.pfWant = l.pfWant + 1 ∧ u.pwr.trans = some t ∧
        t.raise = [4] ∧ tgtOf u.pwr.req 4 = .on) ∧
    (l.gaspQ = [] → Gives .lastGaspWrite s s) ∧
    (∀ t r rest, l.gaspQ = (t, r) :: rest →
      (s.slowEdge ≤ t → Gives .lastGaspWrite s s) ∧
      (t < s.slowEdge → Gives .lastGaspWrite s { s with log := { l with
        gaspQ := rest, gasp := mPut l.gasp l.gaspNext { r with rseq := l.gaspSeq, flags := r.flags ||| 2 },
        gaspNext := (l.gaspNext + 1) % 8, gaspSeen := true, gaspSeq := l.gaspSeq + 1 } })) ∧
    (s.slowEdge < l.secEdge + 32768 → Gives .calendarSecond s s) ∧
    (l.secEdge + 32768 ≤ s.slowEdge →
      (bit (s.reg 0x2830) 2 = false ∨ wd (l.sec + 1).toNat ≠ s.reg 0x2828 → s.ldr.phase ≠ .opened ∨ s.domOn 0 = false ∨ l.ckptSec + 1 < period →
        Gives .calendarSecond s { s with log := l', edge := s.edge.counted 0x3500 1 }) ∧
      (bit (s.reg 0x2830) 2 = true → wd (l.sec + 1).toNat = s.reg 0x2828 → fld (s.reg 0x2830) 5 3 = 0 → s.pwr.trans = none →
          s.domOn 0 = false → (∀ q, s.pwr.lastWake = some q → q.at_ ≠ s.slowEdge) →
        ∃ u t, exec .calendarSecond s = .next u ∧ u.log.sec = l.sec + 1 ∧ u.reg 0x2834 = wd 6 ∧ u.reg 0x2868 = s.reg 0x2868 + 1 ∧
          u.pwr.trans = some t ∧ t.wake = true ∧ t.tgt = []) ∧
      (bit (s.reg 0x2830) 2 = false → s.ldr.phase = .opened → s.domOn 0 = true → l.ckptOn = false →
          s.region 7 ≠ none → period ≤ l.ckptSec + 1 →
        ∃ u j, exec .calendarSecond s = .next u ∧ u.log.sec = l.sec + 1 ∧ u.log.ckptOn = true ∧ u.log.ckptSec = 0 ∧
          u.ldr.jobs = s.ldr.jobs ++ [j] ∧ j.req = 2))

/-! ## The register port (02, 19) -/

/-- R8, R21, R22, R26, R35: the steward's 32-bit write of a configuration register through an image changes its RW bits only, as the
image says, and is answered; a plain write loads a counter, with the increments of its edge on top; a register that the map does not
list takes nothing. -/
def Obligations.PortWrites : Prop :=
  ∀ (s : State) (r : Nat) (data : W64), s.snt.warmDue = false → s.mir.role ≠ .standby → s.unanswered = 0 → (s.win 0).busy = false →
    (s.win 0).recBusy = false → r < 0x4000 → r % 4 = 0 →
    let d := if r % 8 = 4 then hi32 data else lo32 data
    let old := s.reg r
    (∀ row, regAt r = some row → row.lan = false → row.win = false → s.domStill (regDomain r) = false →
      (row.kind = .cfg → ¬(0x1000 ≤ r ∧ r < 0x1400 ∧ r % 0x40 = 0) → ¬(0x0400 ≤ r ∧ r < 0x0600 ∧ r % 8 = 0) →
          r ∉ [0x0200, 0x0800, 0x2C00, 0x3408] →
        ∀ p ∈ ([(.registerWrite r .b32 data, (old &&& ~~~row.rw) ||| (d &&& row.rw)), (.setWrite r .b32 data, old ||| (d &&& row.rw)),
            (.clrWrite r .b32 data, old &&& ~~~(d &&& row.rw)), (.tglWrite r .b32 data, old ^^^ (d &&& row.rw))]
              : List (Instr × Word)),
          Gives p.1 s (s.answers (s.setReg r p.2))) ∧
      (row.kind = .cnt → Gives (.registerWrite r .b32 data) s (s.answers (s.setReg r (d + wd (counts s.edge.cnt r)))))) ∧
    (regAt r = none →
      ∀ c ∈ ([.registerWrite r .b32 data, .setWrite r .b32 data, .clrWrite r .b32 data, .tglWrite r .b32 data, .postedWrite r .b32 data,
          .lowWordRead ⟨r, .b32⟩] : List Instr), Gives c s (s.answers s))

/-- R25, R28, R29, R32, R34: the steward's refused accesses. Each is answered with its reason, shown in SNT_ACC_LAST and counted
under it, a domain's reads apart, and changes nothing else.

The model's choice: log 84, log 85: the order in which the reasons are judged; log 65: a posted pair. -/
def Obligations.PortErrors : Prop :=
  ∀ (s : State) (r : Nat) (data : W64) (d : Word), s.snt.warmDue = false → s.unanswered = 0 → (s.win 0).busy = false → (s.win 0).recBusy = false →
    s.flush = [] → s.ldr.busy = false → r < 0x4000 →
    let refuses := fun (c : Instr) (code : Nat) (wr : Bool) (n : Option Nat) =>
      ∃ u, exec c s = .next u ∧ u.resp = { id := s.regTag, data := 0, err := true, code := code } ∧
        u.reg 0x33D4 = wd (r + 0x10000 * code + (if wr then 0x100000 else 0)) ∧ (∀ k, n = some k → u.reg k = s.reg k + 1) ∧
        (∀ k, k ≠ 0x33D4 → n ≠ some k → k ≠ 0x2C30 → k ≠ 0x3420 → u.reg k = s.reg k) ∧ u.wins = s.wins ∧ u.tbl = s.tbl
    (r % 4 ≠ 0 → refuses (.registerWrite r .b32 data) 1 true (some 0x33C0) ∧ refuses (.lowWordRead ⟨r, .b32⟩) 1 false (some 0x33C0)) ∧
    (∀ row, r % 4 = 0 → regAt r = some row →
      (row.kind = .cmd ∨ row.kind = .lowWord ∨ row.kind = .highWord → refuses (.registerWrite r .b8 data) 2 true (some 0x33C4)) ∧
      (s.domStill (regDomain r) = true →
        refuses (.registerWrite r .b32 data) 3 true (some 0x33C8) ∧ refuses (.lowWordRead ⟨r, .b32⟩) 3 false none) ∧
      (s.domStill (regDomain r) = false → row.kind = .highWord → ((s.win 0).wstage.map Prod.fst) ≠ some (r - 4) →
        refuses (.highWordWrite r d) 4 true (some 0x33CC)) ∧
      (s.domStill (regDomain r) = false → row.lan = true → row.kind = .cfg → (s.win 0).posted.length = 4 →
        refuses (.postedWrite r .b32 data) 5 true (some 0x33D0)))

/-- R229, R230, R231: a tenant's window. A hidden register reads zero without an error; a write of one, or with TEN_CFG.en = 0 of any
register the window does not own, is refused with reason MAP. A table-port READ outside the mapping fills the buffers with zero; a WRITE
outside it, with en = 0, or of a word that names an object outside the grant, an object that the tenant does not own, or a value outside
the band has no effect; neither draws an error. Each is counted with the tenant and shown with its kind, 0x1 to 0x3; a refusal for the
band is counted as one.

R232, R234, R235, R237: a tenant's index names a source by its slot of the source map, a target by its VTN, a context, descriptor,
program or slot word by its range; a mapped entry's READ fills the buffers as the tenant sees it; a WRITE of a binding or a descriptor
stores the granted number.

The model's choice: log 84: a hidden register is judged before its domain; log 124: the tags. -/
def Obligations.TenantWindows : Prop :=
  ∀ (s : State) (v r i : Nat) (data : W64) (m : BitVec 16), v < 256 → s.snt.warmDue = false → s.regReady = true → s.mir.role ≠ .standby →
    s.domStill 0 = false → (s.win (v + 1)).busy = false → (s.win (v + 1)).recBusy = false → (s.win (v + 1)).held = [] →
    (s.win (v + 1)).recHeld = [] → r < 0x4000 → r % 4 = 0 →
    let at_ := (v + 1) * 0x10000 + r
    let tid := fld (s.regW (v + 1) 0x3800) 24 8
    let idx := fld (s.regW (v + 1) 0x3800) 0 24
    let word := fun (k : Nat) => mGet (fun _ => 0#32) (s.win (v + 1)).stage k
    let busied := fun (wr : Bool) => s.modWin (v + 1) fun x => { x with busy := true, busyWr := wr }
    let on := bit (s.ten v 0) 0 = true
    let offBand := tid = 0x01 ∧ m.getLsbD 2 = true ∧ s.inBand v (fld (word 2) 0 2) (fld (word 2) 8 8) = false
    let outside := ∃ k < 16, m.getLsbD k = true ∧
      ((tid = 0x01 ∧ k = 0 ∧ fld (word k) 0 3 = 0 ∧ s.destOf v (fld (word k) 4 10) = none) ∨
       (tid = 0x01 ∧ k = 0 ∧ 0 < fld (word k) 0 3 ∧ fld (word k) 0 3 < 4 ∧ s.groupOf v (fld (word k) 4 10) = none) ∨
       (tid = 0x0A ∧ k = 0 ∧ bit (s.ten v 10) (fld (word k) 1 4) = false) ∨
       (tid = 0x0D ∧ k = 0 ∧ 16 * fld (s.ten v 5) 16 13 < fld (word k) 0 16 + fld (word k) 16 13) ∨
       (tid = 0x0D ∧ k = 2 ∧ bit (word k) 9 = true ∧ fld (s.ten v 6) 16 10 ≤ fld (word k) 0 9) ∨
       (tid = 0x0E ∧ k = 0 ∧ fld (s.ten v 4) 16 13 ≤ fld (word k) 0 12) ∨
       (tid = 0x05 ∧ (k = 0 ∨ 5 ≤ k ∧ k ≤ 8) ∧ s.ownDest v idx = false) ∨
       (tid = 0x08 ∧ (k = 0 ∨ 3 ≤ k ∧ k ≤ 8) ∧ s.ownDest v idx = false) ∨
       (tid = 0x0C ∧ s.ownDest v (512 + idx) = false))
    (∀ kind sel, kind < 16 →
      let u := s.noteMap v kind sel
      u.tw 0x14 v 12 = s.tw 0x14 v 12 + 1 ∧ u.tw64 0x1A v 6 = s.tw64 0x1A v 6 + 1 ∧
        u.reg 0x200C = wd (sel % 0x10000 + 0x10000 * kind + 0x100000 * v + 0x10000000)) ∧
    ((0x1C00 ≤ r ∧ r < 0x2800 ∨ 0x2C00 ≤ r ∧ r < 0x33C0 ∨ 0x0800 ≤ r ∧ r < 0x0C00 ∧ r ∉ [0x0804, 0x0814, 0x081C] ∨
        0x1000 ≤ r ∧ r < 0x1400 ∧ bit (s.ten v 10) ((r - 0x1000) / 64) = false) → s.hidden v r = true) ∧
    ((r < 0x0200 ∨ 0x3800 ≤ r ∨ r ∈ [0x0204, 0x0604, 0x0804, 0x0C00, 0x1404, 0x1408, 0x1804, 0x3500, 0x3504]) → s.hidden v r = false) ∧
    (∀ row, regAt r = some row →
      (s.hidden v r = true → Gives (.lowWordRead ⟨at_, .b32⟩) s (s.answers s)) ∧
      (s.hidden v r = true ∨ (¬on ∧ row.win = false) →
        Gives (.registerWrite at_ .b32 data) s
          (s.answers ((s.noteMap v 1 r).setRegW (v + 1) 0x33D4 (wd (r + 0x160000))) { err := true, code := 6 }))) ∧
    (s.tenEntry v tid idx = none →
      Gives (.tableRead (v + 1) false) s (s.answers (((busied false).noteMap v 2 idx).modWin (v + 1) fun x =>
        { x with snap := [], stage := [], snapValid := false })) ∧
      (on → Gives (.tableWrite (v + 1) m) s (s.answers ((busied true).noteMap v 2 idx)))) ∧
    (¬on → Gives (.tableWrite (v + 1) m) s (s.answers ((busied true).noteMap v 3 idx))) ∧
    (∀ e, s.tenEntry v tid idx = some e → s.domStill (tblDomain tid) = false →
      (∃ u, exec (.tableRead (v + 1) false) s = .next u ∧ (u.win (v + 1)).busy = true ∧ (u.win (v + 1)).snapValid = true ∧
        u.resp = { id := s.regTag } ∧ u.tbl = s.tbl ∧
        ∀ k < 16, mGet (fun _ => 0#32) (u.win (v + 1)).stage k = s.tenWord v tid k (s.tableWord tid e k)) ∧
      (on → outside → ¬offBand → Gives (.tableWrite (v + 1) m) s (s.answers ((busied true).noteMap v 3 idx))) ∧
      (on → offBand →
        Gives (.tableWrite (v + 1) m) s (s.answers (((busied true).bumpTw 0x14 v 13).noteMap v 3 idx))) ∧
      (on → s.edge.hc = [] → s.edge.hs = [] → s.edge.slots = [] →
        (tid = 0x0E → m = 1 → fld (word 0) 0 12 < fld (s.ten v 4) 16 13 → fld (word 0) 0 12 + fld (s.ten v 4) 0 12 < 4096 →
          ∃ u, exec (.tableWrite (v + 1) m) s = .next u ∧ fld (u.tw 0x0E e 0) 0 12 = fld (word 0) 0 12 + fld (s.ten v 4) 0 12 ∧
            bit (u.tw 0x0E e 0) 12 = bit (word 0) 12 ∧ u.reg 0x200C = s.reg 0x200C) ∧
        (tid = 0x0D → m = 1 → fld (word 0) 0 16 + fld (word 0) 16 13 ≤ 16 * fld (s.ten v 5) 16 13 →
            fld (word 0) 0 16 + 16 * fld (s.ten v 5) 0 12 < 65536 →
          ∃ u, exec (.tableWrite (v + 1) m) s = .next u ∧
            fld (u.tw 0x0D e 0) 0 16 = fld (word 0) 0 16 + 16 * fld (s.ten v 5) 0 12 ∧
            fld (u.tw 0x0D e 0) 16 13 = fld (word 0) 16 13 ∧ u.reg 0x200C = s.reg 0x200C))) ∧
    (s.tenEntry v 0x01 i = s.mapSlot v i ∨ ∃ p, s.mapSlot v i = some p ∧ 0x5A40 ≤ p) ∧
    (i < 512 → s.tenEntry v 0x08 i =
      if bit (s.tw 0x16 (32 * v + i / 16) (i % 16)) 15 = true then some (fld (s.tw 0x16 (32 * v + i / 16) (i % 16)) 0 9) else none) ∧
    (fld (s.ten v 3) 0 12 + i < 4096 →
      s.tenEntry v 0x0A i = if i < fld (s.ten v 3) 16 13 then some (fld (s.ten v 3) 0 12 + i) else none) ∧
    (fld (s.ten v 4) 0 12 + i < 4096 →
      s.tenEntry v 0x0D i = if i < fld (s.ten v 4) 16 13 then some (fld (s.ten v 4) 0 12 + i) else none) ∧
    (fld (s.ten v 5) 0 12 + i < 4096 →
      s.tenEntry v 0x0F i = if i < fld (s.ten v 5) 16 13 then some (fld (s.ten v 5) 0 12 + i) else none) ∧
    (∀ t ∈ [0x04, 0x07, 0x09, 0x0B, 0x11, 0x12, 0x13, 0x14, 0x15, 0x16, 0x17, 0x18, 0x1B], s.tenEntry v t i = none)

/-- R26, R31, R32, R33, R34, R330: a low word's read latches the high word, which the next read of the high word returns; a low word's write
is staged, and the high word's takes both into the posted queue; a posted write acts at a SLOW_CLK edge after it was posted, and
the copies follow; a write of REC_CAL is posted and sets the calendar as it is applied, an increment of that edge on top; a tenant may not write it.

The model's choice: log 66, log 87: a tenant's write of REC_CAL; when a posted write acts. -/
def Obligations.WordPairsAndPostedWrites : Prop :=
  ∀ (s : State) (r : Nat) (row : RegRow) (d lo h : Word) (data : W64), s.snt.warmDue = false → s.mir.role ≠ .standby → s.unanswered = 0 →
    (s.win 0).busy = false → (s.win 0).recBusy = false → r < 0x4000 → regAt r = some row →
    let w := s.win 0
    let more := BitVec.ofNat 48 (counts s.edge.lcnt 0x3500)
    let posts := fun (p : Posted) => (s.answers (s.modWin 0 fun x => { x with
        posted := w.posted ++ [p], postedAt := if w.posted = [] then s.slowEdge else w.postedAt }))
    (r % 8 = 0 → row.kind = .lowWord → s.domStill (regDomain r) = false →
      ∀ p ∈ ([(.b32, 0), (.b64, s.winReg 0 (r + 4))] : List (Size × Word)),
        Gives (.lowWordRead ⟨r, p.1⟩) s (s.answers (s.modWin 0 fun x => { x with shadow := some (r, s.winReg 0 (r + 4)) }) { data := mk64 (s.winReg 0 r) p.2 })) ∧
    (r % 8 = 4 → row.kind = .highWord → s.domStill (regDomain r) = false → w.shadow = some (r - 4, h) →
      Gives (.lowWordRead ⟨r, .b32⟩) s (s.answers s { data := mk64 0 h })) ∧
    Gives (.lowWordWrite 0x3500 d) s (s.answers (s.modWin 0 fun x => { x with wstage := some (0x3500, d) })) ∧
    (w.wstage = some (0x3500, lo) → w.posted.length < 4 →
      ∃ u, exec (.highWordWrite 0x3504 d) s = .next u ∧ (u.win 0).wstage = none ∧ u.resp = { id := s.regTag } ∧
        (u.win 0).posted = w.posted ++ [{ off := 0x3504, img := .plain, data := lo, mask := 0xFFFFFFFF, hi := some d }]) ∧
    (row.lan = true → row.kind = .cfg → r % 4 = 0 → w.posted.length < 4 →
      Gives (.postedWrite r .b32 data) s
        (posts { off := r, img := .plain, data := if r % 8 = 4 then hi32 data else lo32 data, mask := 0xFFFFFFFF })) ∧
    (∀ p rest, w.posted = p :: rest →
      (s.slowEdge ≤ w.postedAt ∨ w.appliedAt = some s.slowEdge → Gives (.postedWriteApply 0) s s) ∧
      (w.postedAt < s.slowEdge → w.appliedAt ≠ some s.slowEdge → (r = 0x2830 → s.domOn 0 = true) → p.off = r → r % 4 = 0 → row.lan = true → row.kind = .cfg → p.img = .plain → p.mask = 0xFFFFFFFF →
          p.hi = none →
        ∃ u, exec (.postedWriteApply 0) s = .next u ∧ u.reg r = (s.reg r &&& ~~~row.rw) ||| (p.data &&& row.rw) ∧
          (∀ k, k ≠ r → k ≠ 0x2C30 → k ≠ 0x3420 → u.reg k = s.reg k) ∧ mGet slowDef u.slow r = u.reg r ∧ (u.win 0).posted = rest ∧
          (u.win 0).appliedAt = some s.slowEdge) ∧
      (w.postedAt < s.slowEdge → w.appliedAt ≠ some s.slowEdge → p.hi = some h →
        ∃ u, exec (.postedWriteApply 0) s = .next u ∧ u.log.sec = (mk64 p.data h).setWidth 48 + more ∧ u.log.cv = true)) ∧
    (w.posted = [] → Gives (.postedWriteApply 0) s s) ∧
    (w.posted.length < 4 →
      ∃ u, exec (.recCalWrite 0 data) s = .next u ∧ u.log.sec = s.log.sec ∧ (u.win 0).wstage = none ∧
        (u.win 0).posted = w.posted ++ [{ off := 0x3500, img := .plain, data := lo32 data, mask := 0xFFFFFFFF, hi := some (hi32 data) }]) ∧
    ∃ u, exec (.recCalWrite 1 data) s = .next u ∧ u.log.sec = s.log.sec ∧ u.resp = { id := s.regTag, data := 0, err := true, code := 6 } ∧
      u.regW 1 0x33D4 = 0x163500

/-- R8, R37, R38, R39: the steward's table port. READ copies the selected entry to the buffer; TBL_DATA changes the buffer alone; WRITE
changes the RW fields of the words its mask names, of the selected entry and of no other; the port is busy until the
command is done. An increment of the WRITE's edge comes on top of a counter it loads, and a clear of en stands. -/
def Obligations.TablePort : Prop :=
  ∀ (s : State) (w : Nat) (img : Sys2Proof.Image) (d : Word) (m : BitVec 16), s.snt.warmDue = false → (s.win 0).busy = false → (s.win 0).held = [] →
    PortActs s 0 →
    let x := s.win 0
    let tid := fld (s.reg 0x3800) 24 8
    let idx := fld (s.reg 0x3800) 0 24
    let b := mGet (fun _ => 0#32) x.stage w
    Gives (.tblSelWrite 0 d) s (s.answers ((s.setReg 0x3800 d).modWin 0 fun x => { x with snapValid := false })) ∧
    (w < 16 →
      let v := match img with
        | .plain => d
        | .set => b ||| d
        | .clr => b &&& ~~~d
        | .tgl => b ^^^ d
      Gives (.tblDataWrite 0 w img d) s (s.answers (s.modWin 0 fun x => { x with stage := mSet (fun _ => 0) x.stage w v }))) ∧
    (s.domStill (tblDomain tid) = false →
      (tblHas tid idx = true →
        ∃ u, exec (.tableRead 0 false) s = .next u ∧ (u.win 0).busy = true ∧ (u.win 0).snapValid = true ∧ u.tbl = s.tbl ∧ u.resp = { id := s.regTag } ∧
          ∀ k < 16, mGet (fun _ => 0#32) (u.win 0).snap k = s.tableWord tid idx k ∧
            mGet (fun _ => 0#32) (u.win 0).stage k = s.tableWord tid idx k) ∧
      (tblHas tid idx = false →
        Gives (.tableRead 0 false) s (s.answers (s.modWin 0 fun x =>
          { x with busy := true, busyWr := false, snap := [], stage := [], snapValid := false }))) ∧
      (tblHas tid idx = true → tid ∉ [0x01, 0x02, 0x0A, 0x0B] → s.edge.tcnt = [] → s.edge.hc = [] → s.edge.hs = [] → s.edge.slots = [] →
        ∃ u, exec (.tableWrite 0 m) s = .next u ∧ (u.win 0).busy = true ∧ (u.win 0).busyWr = true ∧ u.resp = { id := s.regTag } ∧
          (∀ k < 16, u.tw tid idx k =
            if m.getLsbD k = true then
              (s.tw tid idx k &&& ~~~tblMask tid k) ||| (mGet (fun _ => 0#32) x.stage k &&& tblMask tid k)
            else s.tw tid idx k) ∧
          (∀ j, (∀ k < 16, j ≠ tKey tid idx k) → mGet tblReset u.tbl j = mGet tblReset s.tbl j)) ∧
      (∀ k, tblHas tid idx = true → tid ∉ [0x01, 0x02, 0x0A, 0x0B] → s.edge.hs = [] → s.edge.slots = [] → k < 16 → m.getLsbD k = true →
        ∃ u, exec (.tableWrite 0 m) s = .next u ∧
          (isCnt tid k = true → s.edge.hc = [] → tblMask tid k = 0xFFFFFFFF →
            u.tw tid idx k = mGet (fun _ => 0#32) x.stage k + wd (counts s.edge.tcnt (tKey tid idx k))) ∧
          (tKey tid idx k ∈ s.edge.hc → bit (u.tw tid idx k) 0 = false)) ∧
      (tblHas tid idx = false →
        Gives (.tableWrite 0 m) s (s.answers (s.modWin 0 fun x => { x with busy := true, busyWr := true })))) ∧
    Gives (.tableAccessDone 0) s s ∧
    (∀ v, (s.win v).busy = true → (s.win v).held = [] → s.domStill (tblDomain (fld (s.regW v 0x3800) 24 8)) = false →
      Gives (.tableAccessDone v) s (s.modWin v fun x => { x with busy := false })) ∧
    (∀ v, 0 < v → v < 257 → (s.win v).busy = true →
      ∃ u, exec (.tblSelWrite v d) s = .next u ∧ (u.win v).held.length = (s.win v).held.length + 1 ∧ u.resp = s.resp)

/-- R54, R55, R58, R135, R171, R319: the steward's writes with an effect of their own: a changed tick divider restarts the tick; a direct-path
input not yet notified takes a new target and prio, and one that stops being one enters the pipeline; a changed base is disabled, and enabled Held or, as a time base, in Run;
REC_FREEZE's fall drains the side buffer and its rise takes in a record assembled at that edge; CTX_CMD arms, disarms and squashes.

The model's choice: log 107: an input whose NOTIFY was withdrawn stays; log 24: what enabling a base clears. -/
def Obligations.UnitWrites : Prop :=
  ∀ (s : State) (n k : Nat) (d : Word), s.snt.warmDue = false → PortActs s 0 → s.domStill 1 = false →
    let mixed := fun (r : Nat) (rw : Word) => (s.reg r &&& ~~~rw) ||| (d &&& rw)
    let v := mixed 0x0200 0x000FFFFF
    let a := 0x0400 + 8 * n
    let p := 0x1000 + 0x40 * n
    let pv := mixed p 0x0FFFFF7F
    (fld v 0 20 ≠ fld (s.reg 0x0200) 0 20 → Gives (.intTickDivWrite 0 d) s (s.answers { s.setReg 0x0200 v with tickAt := s.rank })) ∧
    (fld v 0 20 = fld (s.reg 0x0200) 0 20 → Gives (.intTickDivWrite 0 d) s (s.answers (s.setReg 0x0200 v))) ∧
    (n < 64 →
      Gives (.dpCfgWrite 0 n true d) s (s.answers (s.setReg (a + 4) (mixed (a + 4) 0x00FF7FFF))) ∧
      ((s.src n).place ≠ .direct ∨ (s.src n).st ≠ .pending ∨ (s.src n).told ≠ none →
        Gives (.dpCfgWrite 0 n false d) s (s.answers (s.setReg a (mixed a 0x01FFFF01)))) ∧
      ((s.src n).place = .direct → (s.src n).st = .pending → (s.src n).told = none →
          bit (s.reg a) 0 = false ∨ bit (mixed a 0x01FFFF01) 0 = true →
        let y := mixed a 0x01FFFF01
        Gives (.dpCfgWrite 0 n false d) s (s.answers ((s.setReg a y).modSrc n fun x =>
          { x with dst := fld y 16 9, key := { x.key with prio := fld y 8 8 } }))) ∧
      (bit (s.reg a) 0 = true → (s.src n).place = .direct → (s.src n).st = .pending → (s.src n).told = none →
          bit (mixed a 0x01FFFF01) 0 = false →
        ∃ u, exec (.dpCfgWrite 0 n false d) s = .next u ∧ u.reg a = mixed a 0x01FFFF01 ∧ (u.src n).place = .pipe ∧
          (u.src n).since = s.rank ∧ (u.src n).st = .pending ∧ (u.src n).q = (s.src n).q)) ∧
    (n < 16 →
      (fld pv 1 2 = 3 → Gives (.phsCfgWrite 0 n d) s (s.answers s)) ∧
      (fld pv 1 2 ≠ 3 → fld pv 0 3 = fld (s.reg p) 0 3 ∨ s.ldr.phase ≠ .opened →
        Gives (.phsCfgWrite 0 n d) s (s.answers (s.setReg p pv))) ∧
      (fld pv 1 2 ≠ 3 → fld pv 0 3 ≠ fld (s.reg p) 0 3 → s.ldr.phase = .opened → s.occs = [] → s.ctxs = [] →
        (bit pv 0 = false → ∃ u, exec (.phsCfgWrite 0 n d) s = .next u ∧ u.reg p = pv ∧ (u.base n).st = .disabled) ∧
        (bit pv 0 = true → fld pv 1 2 = 2 →
          ∃ u, exec (.phsCfgWrite 0 n d) s = .next u ∧ u.reg p = pv ∧ (u.base n).st = .run ∧ (u.base n).ai = 0 ∧ (u.base n).ap = 0) ∧
        (bit pv 0 = true → fld pv 1 2 < 2 →
          ∃ u, exec (.phsCfgWrite 0 n d) s = .next u ∧ u.reg p = pv ∧ (u.base n).st = .held ∧ (u.base n).fheld = true ∧
            (u.base n).ai = 0 ∧ (u.base n).ap = 0))) ∧
    (let frz := bit (s.reg 0x3408) 0
     let f := mixed 0x3408 1
     ∃ u, exec (.recFreezeWrite 0 d) s = .next u ∧ u.reg 0x3408 = f ∧ bit f 0 = bit d 0 ∧
      (s.log.asmRank ≠ some s.rank ∨ frz = true ∨ bit d 0 = false → u.log.fly = s.log.fly ∧ u.log.side = s.log.side) ∧
      (∀ r, s.log.asmRank = some s.rank → frz = false → bit d 0 = true → s.log.degr = false → s.log.fly.getLast? = some r →
        u.log.side = s.log.side ++ [r] ∧ u.log.fly = s.log.asmOut.toList ++ s.log.fly.dropLast) ∧
      (frz = true → bit d 0 = false → u.log.drain = decide (s.log.side ≠ []) ∧ u.log.sideAt = s.eng2) ∧
      (frz = false → bit d 0 = true → u.log.frzDropped = false) ∧
      (frz = bit d 0 → u.log.drain = s.log.drain)) ∧
    (k < 4096 →
      (bit (s.ccfg k) 0 = false → Gives (.ctxArm 0 k) s (s.answers s)) ∧
      (bit (s.ccfg k) 0 = true →
        Gives (.ctxArm 0 k) s (s.answers (s.arm k (s.ccmp k)))) ∧
      (s.squashables k = [] →
        Gives (.ctxSquash 0 k) s (s.answers s) ∧
        ∃ u, exec (.ctxDisarm 0 k) s = .next u ∧ (u.ctx k).entries = [] ∧ (u.ctx k).waiting = false ∧
          u.ccfg k = s.ccfg k &&& ~~~1#32 ∧ u.occs = s.occs) ∧
      (∀ o x, s.occs = [(o, x)] → x.id = o → x.ctx = k → x.st = .launched → x.places = [] → (s.src (0x4800 + k)).st ≠ .completing →
          bit (s.ccfg k) 8 = true → bit (s.reg 0x1400) 0 = false →
        ∃ u, exec (.ctxSquash 0 k) s = .next u ∧ (u.ctx k).entries = [] ∧ (u.ctx k).sqr = 9 ∧ u.tw 0x0A k 13 = s.tw 0x0A k 13 + 1 ∧
          u.launchedOf k = []))

/-! ## Rows that take effect -/

/-- Rows of the loader, the power controller, the mirror and the recorder, of the usage decay, the sweeper, the claim timer and the
targets' pins, each where the spec's conditions for it hold: it completes, and its own effect is there (R84, R89, R114, R115, R249,
R255-R258, R260, R263, R267, R270-R279, R290, R291, R293, R326, R329, R330).

The model's choice: log 31, log 60, log 87, log 94: the edges at which the rows act. -/
def Obligations.RowsTakeEffect : Prop :=
  ∀ (s : State), s.snt.warmDue = false →
    let does := fun (c : Instr) (f : State → Prop) => ∃ t, exec c s = .next t ∧ f t
    let l := s.ldr
    let m := s.mir
    let now := s.slowEdge
    (s.domStill 0 = false → s.decayAt + 2 ^ s.dexp ≤ s.rank → does .usageDecay fun t => t.decayAt = s.decayAt + 2 ^ s.dexp) ∧
    (∀ b d, d < 576 → bankOf d = b → s.domStill 0 = false → s.nextSweep b = some d → (s.bank b).sweptAt + (s.dst d).shelf.length ≤ s.rank →
      does (.sweeperVisit b d) fun t => (t.bank b).swept = d ∧ (t.bank b).sweptAt = s.rank ∧ (t.dst d).mark = false) ∧
    (∀ d n, (s.dst d).timer = some n → fld (s.tcfg d) 8 12 ≠ 0 → n + 64 * fld (s.tcfg d) 8 12 ≤ s.rank →
      (512 ≤ d → d < 576 → does (.claimTimerExpiry d) fun t => (t.dst d).expired = true) ∧
      (d < 512 → (s.dst d).c0 = none → (s.dst d).offer = none → does (.claimTimerExpiry d) fun t => (t.dst d).timer = none)) ∧
    (∀ k < 512, (does (.targetUp k) fun t => (t.dst k).upPin = true) ∧ (does (.targetDown k) fun t => (t.dst k).upPin = false)) ∧
    (PortActs s 4 → l.busy = false → l.held = [] →
      (∀ p : BitVec 2, s.pwr.trans = none → does (.restart p) fun t => t.ldr.phase = .header ∧ t.rank = 0) ∧
      (∀ p : BitVec 2, l.phase = .opened → s.draining = false → (s.region p.toNat).isSome = true →
        does (.retune p) fun t => t.ldr.busy = true ∧ t.shadowTbl = s.tbl.filter (fun y => swapKey y.1)) ∧
      (∀ b n, s.region 4 = some (b, n) → s.protectedAt b n = false → s.saveImage.length ≤ n / 2 → does .save fun t => t.ldr.busy = true) ∧
      (s.badRange = false → does .nvmRead fun t => t.ldr.busy = true) ∧
      (l.spend = true → does .swapCancel fun t => t.ldr.spend = false ∧ t.ldr.cstat = 8) ∧
      (does .protectionLock fun t => t.ldr.unl = []) ∧
      (does .unlock fun t => t.reg 0x2440 = 0 ∧ t.reg 0x245C = 0) ∧
      (l.phase = .failed → does .openBlock fun t => t.ldr.phase = .opened)) ∧
    (s.swapReady = true → does .swap fun t => t.edge.swap = true) ∧
    (l.spend = true → fld (s.reg 0x241C) 16 12 ≠ 0 → l.spendAt + 65536 * fld (s.reg 0x241C) 16 12 ≤ s.rank →
      does .swapTimeout fun t => t.ldr.spend = false ∧ t.ldr.cstat = 8) ∧
    (s.startDue = true → s.prepare.ldr.hdr = none → does .startSequence fun t => t.ldr.phase = .failed) ∧
    (∀ e, l.erase = some e →
      (e.susp = false → e.runFrom + 3200000 ≤ s.eng2 → s.readWaits = true →
        does .eraseSuspend fun t => t.ldr.erase = some { e with susp := true, suspAt := some s.eng2 }) ∧
      (e.susp = true → l.transOn = false → s.readWaits = false →
        does .eraseResume fun t => t.ldr.erase = some { e with susp := false, suspAt := none, runFrom := s.eng2 }) ∧
      (e.susp = false → s.txJob = none → s.erasingJob = none → does (.nvmBusyClear .good) fun t => t.ldr.erase = none)) ∧
    (∀ x, m.takeAt = some x → m.role = .takeover → 0x5A40 ≤ x → s.ins = [] → (∀ k < 4096, bit (s.ccfg k) 0 = false) →
      does .takeoverOpen fun t => t.mir.role = .solo ∧ t.mir.takeAt = none) ∧
    (m.fence = true → m.fack = false → does .fenceAck fun t => t.mir.fack = true) ∧
    (s.fenceLate = true → does .fenceTimeout fun t => t.mir.fto = true ∧ t.snt.safe = true) ∧
    (m.role = .primary → bit (s.reg 0x2C00) 7 = false →
      (s.linked = true → does (.leaveFrame true) fun t => t.mir.role = .solo) ∧
      (s.regReady = true → s.domStill 3 = false → does .leave fun t => t.mir.role = .solo)) ∧
    (s.regReady = true → s.domStill 3 = false → m.role = .takeover → m.fto = true → does .rejoin fun t => t.mir.role = .solo) ∧
    (∀ t d rest, s.pwr.trans = some t →
      (t.ask = d :: rest → t.ph = .asking →
        (t.asked + 2 ≤ now → now ≤ t.asked + s.answerLimit → s.working d = false → s.refusal d = none →
          does .domainAnswer fun u => d ∈ u.pwr.clkOff) ∧
        (t.asked + s.answerLimit ≤ now → does .strikeAnswerTimeout fun u => d ∈ u.pwr.clkOff ∧ u.reg 0x2864 = s.reg 0x2864 + 1)) ∧
      (t.stopped = d :: rest → t.ph = .undoing → t.next ≤ now → 2 ≤ d → does .repitch fun u => d ∉ u.pwr.clkOff) ∧
      (d < 40 → 2 ≤ d → t.ph = .raising → t.raise = d :: rest → rest ≠ [] → t.acked = [d] → t.next ≤ now → s.log.pfWant = 0 →
        does (.domainReturn d) fun u => u.dom d = .on)) ∧
    (∀ d < 40, does (.powerAck d) fun u => tgtOf u.pwr.ackPin d = tgtOf s.pwr.req d) ∧
    (∀ a : BitVec 3, does (.powerManagerRequest a) fun u => u.pwr.pmPin.isSome = true) ∧
    (does .powerManagerRelease fun u => u.pwr.pmPin = none) ∧
    (s.pwr.trans = none → s.pwr.lateWake = none → s.log.pfWant = 0 →
      (s.pwr.pmMid = none → does .slowCopyRefresh fun u => u.slowEdge = now + 1) ∧
      (s.regReady = true → m.role ≠ .standby → (s.win 0).posted = [] →
        (∀ a : BitVec 3, does (.mode a) fun u => (u.win 0).posted = [{ off := 0x2800, img := .plain, data := wd (1 + 4 * a.toNat), mask := 0xFFFFFFFF }]) ∧
        (does .applyTargets fun u => (u.win 0).posted = [{ off := 0x2800, img := .plain, data := 2, mask := 0xFFFFFFFF }])) ∧
      ((∃ d ∈ strikeOrder, s.dom d ≠ .on) → fld (s.reg 0x2830) 5 3 = 0 → (∀ q, s.pwr.lastWake = some q → q.at_ ≠ now) →
        (∀ a : BitVec 7, bit (s.reg 0x2830) 0 = true → a.toNat = fld (s.reg 0x282C) 0 7 →
          does (.i2cWake a) fun u => u.pwr.i2cAck = true ∧ u.reg 0x2834 = 4) ∧
        (bit (s.reg 0x2830) 1 = true → bit (s.reg 0x2830) 4 ≠ !s.pwr.wakeIn →
          does (.wakeIn !s.pwr.wakeIn) fun u => u.reg 0x2834 = 5))) ∧
    (s.domOn 0 = false → does .pfail fun u => u.log.gaspQ ≠ []) ∧
    (∀ n r rest, s.log.gaspQ = (n, r) :: rest → n < now → does .lastGaspWrite fun u => u.log.gaspQ = rest ∧ u.log.gaspSeen = true) ∧
    (s.log.secEdge + 32768 ≤ now → bit (s.reg 0x2830) 2 = false → s.domOn 0 = false → does .calendarSecond fun u => u.log.sec = s.log.sec + 1)

/-! ## Resets, the idle step, the words of reflex programs -/

/-- R11, R351: after lantern power-on reset every register reads its reset value, the tables and the block's dynamic state are
empty, every domain is On, nothing is retained; only the memory, the pins and the queue of commands stay. After BLK_RST_N the
kept registers, the calendar, the safe state and the recorder's last gasp stay too, the straps are as shown, and the retention
SRAM switch and the domains that are not On return one at a time (R276).

R344: the registers that the map gives a reset value other than 0 hold it at reset; of those it gives 0, the ones listed hold 0.

The model's choice: log 4, log 110: the levels of pins and responses at reset; every domain On. -/
def Obligations.ResetStates : Prop :=
  (∀ (s : State) (prof : BitVec 2) (strap : Bool),
     let quiet := fun (u : State) =>
       u.srcs = [] ∧ u.rq = [] ∧ u.bases = [] ∧ u.ctxs = [] ∧ u.occs = [] ∧ u.engs = [] ∧ u.clusters = [] ∧ u.locks = [] ∧ u.seqs = [] ∧
         u.arbs = [] ∧ u.wins = [] ∧ u.rank = 0 ∧ u.ldr.phase = .header ∧ u.ldr.busy = false ∧ u.ldr.jobs = [] ∧ u.mir.role = .off ∧
         u.mir.journal = [] ∧ u.log.fly = [] ∧ u.log.reqs = [] ∧ u.edge = {} ∧ u.ldr.nvm = s.ldr.nvm ∧
         u.pwr.wakeIn = s.pwr.wakeIn ∧ u.pending = s.pending
     (∃ u, exec .lanternPowerOnReset s = .next u ∧ quiet u ∧ (∀ k, u.reg k = regDef k) ∧ u.tbl = [] ∧ u.ldr.ret = {} ∧
       u.log.sec = 0 ∧ u.log.cv = false ∧ u.log.gasp = [] ∧ u.snt.safe = false ∧ u.mir.strap = s.mir.strap ∧ u.pwr.trans = none ∧
       ∀ d, u.dom d = .on) ∧
     (∃ u, exec (.blkRstN prof strap) s = .next u ∧ quiet u ∧ (∀ k, keptKey k = true → u.reg k = s.reg k) ∧
       (∀ k, keptKey k = false → u.reg k = regDef k) ∧ (∀ i w, i < 0x8000 → w < 16 → u.tw 0x0A i w = tblReset (tKey 0x0A i w)) ∧
       u.log.sec = s.log.sec ∧ u.log.cv = s.log.cv ∧ u.log.gasp = s.log.gasp ∧ u.snt.safe = s.snt.safe ∧
       u.ldr.pins = prof.toNat ∧ u.mir.strap = strap ∧ u.ldr.fails = s.ldr.fails ∧ (∀ d, u.dom d = s.dom d) ∧
       let up := (if s.pwr.ropen then [5] else []) ++ (strikeOrder.filter fun d => decide (s.dom d ≠ .on ∨ tgtOf s.pwr.req d ≠ .on)).reverse
       (up = [] → u.pwr.trans = none) ∧
       (up ≠ [] → ∃ t, u.pwr.trans = some t ∧ t.ph = .raising ∧ t.raise = up ∧ t.acked = [] ∧ tgtOf u.pwr.req (up.headD 0) = .on))) ∧
  (let given := ([(0x0200, 0x00000C7F), (0x0800, 0x00100830), (0x1000, 0x00400000), (0x1004, 0x00147AE1), (0x100C, 0x01000000),
     (0x1014, 0x00200000), (0x1038, 0x00000100), (0x241C, 0x00300000), (0x2824, 0x00000020), (0x2828, 0xFFFFFFFF),
     (0x2880, 0x00080201), (0x2884, 0x00020201), (0x2888, 0x00100401), (0x288C, 0x00020201), (0x28A0, 0x00020201),
     (0x2C00, 0x0000003E), (0x2C04, 0x03264432), (0x3000, 0x00000070), (0x3010, 0x00320032), (0x3014, 0x003101F4),
     (0x3018, 0x04000010), (0x301C, 0x00002800), (0x3028, 0x00000003), (0x3400, 0x00000006), (0x3418, 0x00000E10)] : List (Nat × Word))
   (∀ p ∈ given, State.reset.reg p.1 = p.2) ∧
   (∀ k ∈ [0x0600, 0x0610, 0x0810, 0x0C10, 0x1400, 0x1410, 0x1800, 0x180C, 0x1C00, 0x1C20, 0x2000, 0x2404, 0x2408, 0x2420, 0x2460,
     0x2808, 0x2830, 0x2838, 0x2860, 0x2C20, 0x3020, 0x3024, 0x3044, 0x30A0, 0x33C0, 0x3408, 0x3420], State.reset.reg k = 0) ∧
   State.reset.pending = [] ∧ State.reset.serving = false ∧ State.reset.snt.warmDue = false ∧ State.reset.Canonical ∧ (∀ d, State.reset.dom d = .on))

/-- The model's choice (log 1): a step with no waiting command is one RANK_CLK edge. When nothing is under way and nothing falls due
at it, it changes the counts of edges and the notes of the edge alone. -/
def Obligations.IdleStep : Prop :=
  ∀ (s : State), s.pending = [] → s.snt.warmDue = false → s.mir.role ≠ .primary → s.mir.takeAt = none → s.srcs = [] → s.engs = [] →
    s.dsts = [] → s.bases = [] → s.ctxs = [] → s.seqs = [] → s.fifo = [] → s.flush = [] → s.snt.funcs = [] → s.log.flushWant = false →
    s.edge = { cnt := s.edge.cnt, tcnt := s.edge.tcnt, lcnt := s.edge.lcnt, hc := s.edge.hc, hs := s.edge.hs, slots := s.edge.slots,
               ports := s.edge.ports, loads := s.edge.loads } →
      step s = .next { s with rank := s.rank + 1, fab := s.fab + 1, edge := s.edge.next (s.rank + 1) }

/-- No command leaves a warm reset undone: whatever the state before, a step that answers leaves none asserted (R305, R306).

The model's choice: log 31: a warm reset acts in the command that asserts it. -/
def Obligations.WarmResetsAreDone : Prop :=
  ∀ (s t : State), step s = .next t → t.snt.warmDue = false

/-- The sparse maps of sources, engines and usage levels keep their canonical form, whatever the step: keys strictly rising, and no
entry equal to the default. -/
def Obligations.CanonicalFormIsKept : Prop :=
  ∀ (s t : State), step s = .next t → s.Canonical → t.Canonical

/-- R192: the word of every instruction of a reflex program, with operands the encoding admits, reads back as that instruction,
with every operand; a word with an opcode of no instruction reads as none; a word that reads as an instruction is its word. The 22 words
of the table "PI reflex, encoded" (10) spell its instructions. -/
def Obligations.WordsReadBack : Prop :=
  (∀ (e : Nat) (d a b k : BitVec 5) (imm : BitVec 16) (o : BitVec 8) (off : BitVec 11) (rnd : BitVec 2) (n16 : Bool)
     (body bound : BitVec 8) (n : BitVec 6) (w : Word),
     (∀ i ∈ ([.nop e .ok, .add e d a b .ok, .sub e d a b .ok, .adds e d a b .ok, .subs e d a b .ok, .and e d a b .ok, .or e d a b .ok,
         .xor e d a b .ok, .shl e d a b .ok, .shr e d a b .ok, .sra e d a b .ok, .min e d a b .ok, .max e d a b .ok, .abs e d a .ok,
         .addi e d a imm .ok, .addis e d a imm .ok, .andi e d a imm .ok, .ori e d a imm .ok, .ldi e d imm .ok, .lui e d imm .ok,
         .shli e d a k .ok, .shri e d a k .ok, .srai e d a k .ok, .mul e d a b k rnd .ok, .mac e a b .ok, .msu e a b .ok,
         .accld e a k .ok, .accadd e a k .ok, .accrd e d k rnd n16 .ok, .lds e d o .ok, .ldsx e d a o .ok, .sts e d o .ok,
         .stsx e d a o .ok, .out e d a imm .ok, .outh e d a imm .ok, .lock e n .ok, .rel e .ok, .raise e d a .ok, .endR e .ok]
           : List Instr),
       ∃ x, insnWord i = some x ∧ readWord e x = some i) ∧
     (b ≠ 31 → ∃ x, insnWord (.clmp e d a b .ok) = some x ∧ readWord e x = some (.clmp e d a b .ok)) ∧
     (d.toNat ≤ 0x0A → (d = 0 ∨ d = 7 ∨ d = 8 → a = 0 ∧ b = 0) →
       ∃ x, insnWord (.br e d a b off .ok) = some x ∧ readWord e x = some (.br e d a b off .ok)) ∧
     (body ≠ 0 → bound ≠ 0 →
       (∃ x, insnWord (.loop e body bound .ok) = some x ∧ readWord e x = some (.loop e body bound .ok)) ∧
       (∃ x, insnWord (.loopr e a body bound .ok) = some x ∧ readWord e x = some (.loopr e a body bound .ok))) ∧
     (k.toNat ≤ 8 → ∃ x, insnWord (.rds e d k .ok) = some x ∧ readWord e x = some (.rds e d k .ok)) ∧
     (∀ i, readWord e w = some i → insnWord i = some w) ∧
     (w.toNat / 2 ^ 26 ∉ [0x01, 0x02, 0x03, 0x04, 0x05, 0x06, 0x07, 0x08, 0x09, 0x0A, 0x0B, 0x0C, 0x0D, 0x0E, 0x0F, 0x10, 0x11, 0x12, 0x13,
         0x14, 0x15, 0x16, 0x17, 0x18, 0x20, 0x21, 0x22, 0x23, 0x24, 0x25, 0x28, 0x29, 0x2A, 0x2B, 0x2C, 0x2D, 0x30, 0x31, 0x32, 0x34,
         0x35, 0x38, 0x39, 0x3F] → readWord e w = none)) ∧
  (∀ p ∈ ([(0x4A000FFF, .andi 0 16 0 0x0FFF .ok), (0x0E107800, .sub 0 16 16 15 .ok), (0x3AB00000, .abs 0 21 16 .ok),
       (0x52800708, .ldi 0 20 0x0708 .ok), (0xC095A00D, .br 0 0x04 21 20 13 .ok), (0x16288000, .subs 0 17 8 16 .ok),
       (0x824A8C10, .mul 0 18 10 17 16 1 .ok), (0x116B9000, .adds 0 11 11 18 .ok), (0x3D6B6000, .clmp 0 11 11 12 .ok),
       (0x8C0B0400, .accld 0 11 16 .ok), (0x84098800, .mac 0 9 17 .ok), (0x96600420, .accrd 0 19 16 2 false .ok),
       (0x3E736000, .clmp 0 19 19 12 .ok), (0xB26E0000, .out 0 19 14 0 .ok), (0xA9600003, .sts 0 11 3 .ok),
       (0x4AC2FFFF, .andi 0 22 2 0xFFFF .ok), (0xAAC00008, .sts 0 22 8 .ok), (0xC0000003, .br 0 0 0 0 3 .ok),
       (0xE2F00000, .raise 0 23 16 .ok), (0xB18E0000, .out 0 12 14 0 .ok), (0xAA000009, .sts 0 16 9 .ok), (0xFC000000, .endR 0 .ok)]
         : List (Word × Instr)),
     readWord 0 p.1 = some p.2)
end

