-- ==== Sys2Proof/Laws/SMap.lean ====
section
/-! SUPPORT. The laws of sparse maps: a read after a write, and the canonical form every write keeps. -/

namespace Sys2Proof.Laws

open Sys2Proof.Machine

variable {α : Type}

theorem mFind_erase_same (m : SMap α) (k : Nat) : mFind (mErase m k) k = none := by
  induction m with
  | nil => rfl
  | cons p t ih =>
    obtain ⟨j, a⟩ := p
    by_cases h : k = j
    · subst h; simpa [mErase] using ih
    · simpa [mErase, mFind, h] using ih

theorem mFind_erase_other (m : SMap α) {k i : Nat} (h : i ≠ k) : mFind (mErase m k) i = mFind m i := by
  induction m with
  | nil => rfl
  | cons p t ih =>
    obtain ⟨j, a⟩ := p
    by_cases hk : k = j
    · subst hk; simp [mErase, mFind, h, ih]
    · by_cases hi : i = j <;> simp [mErase, mFind, hk, hi, ih]

theorem mFind_put_same (m : SMap α) (k : Nat) (v : α) : mFind (mPut m k v) k = some v := by
  induction m with
  | nil => simp [mPut, mFind]
  | cons p t ih =>
    obtain ⟨j, a⟩ := p
    simp only [mPut]
    split
    · simp [mFind]
    · split
      · simp [mFind]
      · rename_i h1 h2; simp [mFind, h2, ih]

theorem mFind_put_other (m : SMap α) {k i : Nat} (v : α) (h : i ≠ k) :
    mFind (mPut m k v) i = mFind m i := by
  induction m with
  | nil => simp [mPut, mFind, h]
  | cons p t ih =>
    obtain ⟨j, a⟩ := p
    simp only [mPut]
    split
    · simp [mFind, h]
    · split
      · rename_i h1 h2; subst h2; simp [mFind, h]
      · simp only [mFind, ih]

variable [DecidableEq α] (d : Nat → α)

/-- A read of the key just written gives the value written. -/
@[simp] theorem mGet_set_same (m : SMap α) (k : Nat) (v : α) : mGet d (mSet d m k v) k = v := by
  unfold mGet mSet
  split
  · rename_i h; simp [mFind_erase_same, h]
  · simp [mFind_put_same]

/-- A write leaves every other key alone. -/
@[simp] theorem mGet_set_other (m : SMap α) {k i : Nat} (v : α) (h : i ≠ k) :
    mGet d (mSet d m k v) i = mGet d m i := by
  unfold mGet mSet
  split
  · simp [mFind_erase_other m h]
  · simp [mFind_put_other m v h]

omit [DecidableEq α] in
theorem mSorted_mono {lo lo' : Nat} (m : SMap α) (h : lo' ≤ lo) (hm : mSorted lo m = true) :
    mSorted lo' m = true := by
  cases m with
  | nil => rfl
  | cons p t =>
    simp only [mSorted, Bool.and_eq_true, decide_eq_true_eq] at hm ⊢
    exact ⟨le_trans h hm.1, hm.2⟩

omit [DecidableEq α] in
theorem mSorted_erase (m : SMap α) (lo k : Nat) (h : mSorted lo m = true) :
    mSorted lo (mErase m k) = true := by
  induction m generalizing lo with
  | nil => rfl
  | cons p t ih =>
    obtain ⟨j, a⟩ := p
    simp only [mSorted, Bool.and_eq_true, decide_eq_true_eq] at h
    simp only [mErase]
    split
    · exact mSorted_mono _ (by omega) (ih (j + 1) h.2)
    · simp only [mSorted, Bool.and_eq_true, decide_eq_true_eq]; exact ⟨h.1, ih (j + 1) h.2⟩

omit [DecidableEq α] in
theorem mSorted_put (m : SMap α) (lo k : Nat) (v : α) (hk : lo ≤ k) (h : mSorted lo m = true) :
    mSorted lo (mPut m k v) = true := by
  induction m generalizing lo with
  | nil => simp [mPut, mSorted, hk]
  | cons p t ih =>
    obtain ⟨j, a⟩ := p
    simp only [mSorted, Bool.and_eq_true, decide_eq_true_eq] at h
    simp only [mPut]
    split
    · simp only [mSorted, Bool.and_eq_true, decide_eq_true_eq]; exact ⟨hk, by omega, h.2⟩
    · split
      · rename_i h2; subst h2; simp only [mSorted, Bool.and_eq_true, decide_eq_true_eq]; exact h
      · simp only [mSorted, Bool.and_eq_true, decide_eq_true_eq]
        exact ⟨h.1, ih (j + 1) (by omega) h.2⟩

theorem mSparse_erase (m : SMap α) (k : Nat) (h : mSparse d m = true) : mSparse d (mErase m k) = true := by
  induction m with
  | nil => rfl
  | cons p t ih =>
    obtain ⟨j, a⟩ := p
    simp only [mSparse, Bool.and_eq_true] at h
    simp only [mErase]
    split
    · exact ih h.2
    · simp only [mSparse, Bool.and_eq_true]; exact ⟨h.1, ih h.2⟩

theorem mSparse_put (m : SMap α) (k : Nat) (v : α) (hv : v ≠ d k) (h : mSparse d m = true) :
    mSparse d (mPut m k v) = true := by
  induction m with
  | nil => simp [mPut, mSparse, hv]
  | cons p t ih =>
    obtain ⟨j, a⟩ := p
    simp only [mSparse, Bool.and_eq_true] at h
    simp only [mPut]
    split
    · simp only [mSparse, Bool.and_eq_true, decide_eq_true_eq]; exact ⟨hv, by simpa using h.1, h.2⟩
    · split
      · simp only [mSparse, Bool.and_eq_true, decide_eq_true_eq]; exact ⟨hv, h.2⟩
      · simp only [mSparse, Bool.and_eq_true]; exact ⟨h.1, ih h.2⟩

/-- Every write keeps the canonical form. -/
theorem mWf_set (m : SMap α) (k : Nat) (v : α) (h : mWf d m = true) : mWf d (mSet d m k v) = true := by
  simp only [mWf, Bool.and_eq_true] at h ⊢
  unfold mSet
  split
  · exact ⟨mSorted_erase m 0 k h.1, mSparse_erase d m k h.2⟩
  · rename_i hv; exact ⟨mSorted_put m 0 k v (Nat.zero_le k) h.1, mSparse_put d m k v hv h.2⟩

end Sys2Proof.Laws
end

