-- ==== Sys2Proof/Laws/State.lean ====
section
/-! SUPPORT. One lemma per field per update of the state, and the reads after the writes, so that no proof unfolds a record
update. -/

namespace Sys2Proof.Laws

open Sys2Proof.Machine

variable (s : State)

/-! ## setIn -/

@[simp] theorem setIn_rank (k : Nat) (v : InSt) : (s.setIn k v).rank = s.rank := rfl
@[simp] theorem setIn_slowEdge (k : Nat) (v : InSt) : (s.setIn k v).slowEdge = s.slowEdge := rfl
@[simp] theorem setIn_regs (k : Nat) (v : InSt) : (s.setIn k v).regs = s.regs := rfl
@[simp] theorem setIn_tbl (k : Nat) (v : InSt) : (s.setIn k v).tbl = s.tbl := rfl
@[simp] theorem setIn_shadowTbl (k : Nat) (v : InSt) : (s.setIn k v).shadowTbl = s.shadowTbl := rfl
@[simp] theorem setIn_slow (k : Nat) (v : InSt) : (s.setIn k v).slow = s.slow := rfl
@[simp] theorem setIn_edge (k : Nat) (v : InSt) : (s.setIn k v).edge = s.edge := rfl
@[simp] theorem setIn_resp (k : Nat) (v : InSt) : (s.setIn k v).resp = s.resp := rfl
@[simp] theorem setIn_answered (k : Nat) (v : InSt) : (s.setIn k v).answered = s.answered := rfl
@[simp] theorem setIn_regTag (k : Nat) (v : InSt) : (s.setIn k v).regTag = s.regTag := rfl
@[simp] theorem setIn_wins (k : Nat) (v : InSt) : (s.setIn k v).wins = s.wins := rfl
@[simp] theorem setIn_ticks (k : Nat) (v : InSt) : (s.setIn k v).ticks = s.ticks := rfl
@[simp] theorem setIn_tickAt (k : Nat) (v : InSt) : (s.setIn k v).tickAt = s.tickAt := rfl
@[simp] theorem setIn_fifo (k : Nat) (v : InSt) : (s.setIn k v).fifo = s.fifo := rfl
@[simp] theorem setIn_fab (k : Nat) (v : InSt) : (s.setIn k v).fab = s.fab := rfl
@[simp] theorem setIn_rq (k : Nat) (v : InSt) : (s.setIn k v).rq = s.rq := rfl
@[simp] theorem setIn_lastMsg (k : Nat) (v : InSt) : (s.setIn k v).lastMsg = s.lastMsg := rfl
@[simp] theorem setIn_srcs (k : Nat) (v : InSt) : (s.setIn k v).srcs = s.srcs := rfl
@[simp] theorem setIn_dsts (k : Nat) (v : InSt) : (s.setIn k v).dsts = s.dsts := rfl
@[simp] theorem setIn_banks (k : Nat) (v : InSt) : (s.setIn k v).banks = s.banks := rfl
@[simp] theorem setIn_usage (k : Nat) (v : InSt) : (s.setIn k v).usage = s.usage := rfl
@[simp] theorem setIn_decayAt (k : Nat) (v : InSt) : (s.setIn k v).decayAt = s.decayAt := rfl
@[simp] theorem setIn_bases (k : Nat) (v : InSt) : (s.setIn k v).bases = s.bases := rfl
@[simp] theorem setIn_ctxs (k : Nat) (v : InSt) : (s.setIn k v).ctxs = s.ctxs := rfl
@[simp] theorem setIn_occs (k : Nat) (v : InSt) : (s.setIn k v).occs = s.occs := rfl
@[simp] theorem setIn_occNext (k : Nat) (v : InSt) : (s.setIn k v).occNext = s.occNext := rfl
@[simp] theorem setIn_engs (k : Nat) (v : InSt) : (s.setIn k v).engs = s.engs := rfl
@[simp] theorem setIn_pools (k : Nat) (v : InSt) : (s.setIn k v).pools = s.pools := rfl
@[simp] theorem setIn_clusters (k : Nat) (v : InSt) : (s.setIn k v).clusters = s.clusters := rfl
@[simp] theorem setIn_locks (k : Nat) (v : InSt) : (s.setIn k v).locks = s.locks := rfl
@[simp] theorem setIn_seqs (k : Nat) (v : InSt) : (s.setIn k v).seqs = s.seqs := rfl
@[simp] theorem setIn_seqNext (k : Nat) (v : InSt) : (s.setIn k v).seqNext = s.seqNext := rfl
@[simp] theorem setIn_arbs (k : Nat) (v : InSt) : (s.setIn k v).arbs = s.arbs := rfl
@[simp] theorem setIn_safeQ (k : Nat) (v : InSt) : (s.setIn k v).safeQ = s.safeQ := rfl
@[simp] theorem setIn_safeAt (k : Nat) (v : InSt) : (s.setIn k v).safeAt = s.safeAt := rfl
@[simp] theorem setIn_outAt (k : Nat) (v : InSt) : (s.setIn k v).outAt = s.outAt := rfl
@[simp] theorem setIn_stallRun (k : Nat) (v : InSt) : (s.setIn k v).stallRun = s.stallRun := rfl
@[simp] theorem setIn_outLast (k : Nat) (v : InSt) : (s.setIn k v).outLast = s.outLast := rfl
@[simp] theorem setIn_flush (k : Nat) (v : InSt) : (s.setIn k v).flush = s.flush := rfl
@[simp] theorem setIn_mapStat (k : Nat) (v : InSt) : (s.setIn k v).mapStat = s.mapStat := rfl
@[simp] theorem setIn_mapHeld (k : Nat) (v : InSt) : (s.setIn k v).mapHeld = s.mapHeld := rfl
@[simp] theorem setIn_ldr (k : Nat) (v : InSt) : (s.setIn k v).ldr = s.ldr := rfl
@[simp] theorem setIn_pwr (k : Nat) (v : InSt) : (s.setIn k v).pwr = s.pwr := rfl
@[simp] theorem setIn_mir (k : Nat) (v : InSt) : (s.setIn k v).mir = s.mir := rfl
@[simp] theorem setIn_snt (k : Nat) (v : InSt) : (s.setIn k v).snt = s.snt := rfl
@[simp] theorem setIn_log (k : Nat) (v : InSt) : (s.setIn k v).log = s.log := rfl
@[simp] theorem setIn_pending (k : Nat) (v : InSt) : (s.setIn k v).pending = s.pending := rfl
@[simp] theorem setIn_free (k : Nat) (v : InSt) : (s.setIn k v).free = s.free := rfl

/-! ## setSrc -/

@[simp] theorem setSrc_rank (k : Nat) (v : Src) : (s.setSrc k v).rank = s.rank := rfl
@[simp] theorem setSrc_slowEdge (k : Nat) (v : Src) : (s.setSrc k v).slowEdge = s.slowEdge := rfl
@[simp] theorem setSrc_regs (k : Nat) (v : Src) : (s.setSrc k v).regs = s.regs := rfl
@[simp] theorem setSrc_tbl (k : Nat) (v : Src) : (s.setSrc k v).tbl = s.tbl := rfl
@[simp] theorem setSrc_shadowTbl (k : Nat) (v : Src) : (s.setSrc k v).shadowTbl = s.shadowTbl := rfl
@[simp] theorem setSrc_slow (k : Nat) (v : Src) : (s.setSrc k v).slow = s.slow := rfl
@[simp] theorem setSrc_edge (k : Nat) (v : Src) : (s.setSrc k v).edge = s.edge := rfl
@[simp] theorem setSrc_resp (k : Nat) (v : Src) : (s.setSrc k v).resp = s.resp := rfl
@[simp] theorem setSrc_answered (k : Nat) (v : Src) : (s.setSrc k v).answered = s.answered := rfl
@[simp] theorem setSrc_regTag (k : Nat) (v : Src) : (s.setSrc k v).regTag = s.regTag := rfl
@[simp] theorem setSrc_wins (k : Nat) (v : Src) : (s.setSrc k v).wins = s.wins := rfl
@[simp] theorem setSrc_ticks (k : Nat) (v : Src) : (s.setSrc k v).ticks = s.ticks := rfl
@[simp] theorem setSrc_tickAt (k : Nat) (v : Src) : (s.setSrc k v).tickAt = s.tickAt := rfl
@[simp] theorem setSrc_ins (k : Nat) (v : Src) : (s.setSrc k v).ins = s.ins := rfl
@[simp] theorem setSrc_fifo (k : Nat) (v : Src) : (s.setSrc k v).fifo = s.fifo := rfl
@[simp] theorem setSrc_fab (k : Nat) (v : Src) : (s.setSrc k v).fab = s.fab := rfl
@[simp] theorem setSrc_rq (k : Nat) (v : Src) : (s.setSrc k v).rq = s.rq := rfl
@[simp] theorem setSrc_lastMsg (k : Nat) (v : Src) : (s.setSrc k v).lastMsg = s.lastMsg := rfl
@[simp] theorem setSrc_dsts (k : Nat) (v : Src) : (s.setSrc k v).dsts = s.dsts := rfl
@[simp] theorem setSrc_banks (k : Nat) (v : Src) : (s.setSrc k v).banks = s.banks := rfl
@[simp] theorem setSrc_usage (k : Nat) (v : Src) : (s.setSrc k v).usage = s.usage := rfl
@[simp] theorem setSrc_decayAt (k : Nat) (v : Src) : (s.setSrc k v).decayAt = s.decayAt := rfl
@[simp] theorem setSrc_bases (k : Nat) (v : Src) : (s.setSrc k v).bases = s.bases := rfl
@[simp] theorem setSrc_ctxs (k : Nat) (v : Src) : (s.setSrc k v).ctxs = s.ctxs := rfl
@[simp] theorem setSrc_occs (k : Nat) (v : Src) : (s.setSrc k v).occs = s.occs := rfl
@[simp] theorem setSrc_occNext (k : Nat) (v : Src) : (s.setSrc k v).occNext = s.occNext := rfl
@[simp] theorem setSrc_engs (k : Nat) (v : Src) : (s.setSrc k v).engs = s.engs := rfl
@[simp] theorem setSrc_pools (k : Nat) (v : Src) : (s.setSrc k v).pools = s.pools := rfl
@[simp] theorem setSrc_clusters (k : Nat) (v : Src) : (s.setSrc k v).clusters = s.clusters := rfl
@[simp] theorem setSrc_locks (k : Nat) (v : Src) : (s.setSrc k v).locks = s.locks := rfl
@[simp] theorem setSrc_seqs (k : Nat) (v : Src) : (s.setSrc k v).seqs = s.seqs := rfl
@[simp] theorem setSrc_seqNext (k : Nat) (v : Src) : (s.setSrc k v).seqNext = s.seqNext := rfl
@[simp] theorem setSrc_arbs (k : Nat) (v : Src) : (s.setSrc k v).arbs = s.arbs := rfl
@[simp] theorem setSrc_safeQ (k : Nat) (v : Src) : (s.setSrc k v).safeQ = s.safeQ := rfl
@[simp] theorem setSrc_safeAt (k : Nat) (v : Src) : (s.setSrc k v).safeAt = s.safeAt := rfl
@[simp] theorem setSrc_outAt (k : Nat) (v : Src) : (s.setSrc k v).outAt = s.outAt := rfl
@[simp] theorem setSrc_stallRun (k : Nat) (v : Src) : (s.setSrc k v).stallRun = s.stallRun := rfl
@[simp] theorem setSrc_outLast (k : Nat) (v : Src) : (s.setSrc k v).outLast = s.outLast := rfl
@[simp] theorem setSrc_flush (k : Nat) (v : Src) : (s.setSrc k v).flush = s.flush := rfl
@[simp] theorem setSrc_mapStat (k : Nat) (v : Src) : (s.setSrc k v).mapStat = s.mapStat := rfl
@[simp] theorem setSrc_mapHeld (k : Nat) (v : Src) : (s.setSrc k v).mapHeld = s.mapHeld := rfl
@[simp] theorem setSrc_ldr (k : Nat) (v : Src) : (s.setSrc k v).ldr = s.ldr := rfl
@[simp] theorem setSrc_pwr (k : Nat) (v : Src) : (s.setSrc k v).pwr = s.pwr := rfl
@[simp] theorem setSrc_mir (k : Nat) (v : Src) : (s.setSrc k v).mir = s.mir := rfl
@[simp] theorem setSrc_snt (k : Nat) (v : Src) : (s.setSrc k v).snt = s.snt := rfl
@[simp] theorem setSrc_log (k : Nat) (v : Src) : (s.setSrc k v).log = s.log := rfl
@[simp] theorem setSrc_pending (k : Nat) (v : Src) : (s.setSrc k v).pending = s.pending := rfl
@[simp] theorem setSrc_free (k : Nat) (v : Src) : (s.setSrc k v).free = s.free := rfl

/-! ## setDst -/

@[simp] theorem setDst_rank (k : Nat) (v : Dst) : (s.setDst k v).rank = s.rank := rfl
@[simp] theorem setDst_slowEdge (k : Nat) (v : Dst) : (s.setDst k v).slowEdge = s.slowEdge := rfl
@[simp] theorem setDst_regs (k : Nat) (v : Dst) : (s.setDst k v).regs = s.regs := rfl
@[simp] theorem setDst_tbl (k : Nat) (v : Dst) : (s.setDst k v).tbl = s.tbl := rfl
@[simp] theorem setDst_shadowTbl (k : Nat) (v : Dst) : (s.setDst k v).shadowTbl = s.shadowTbl := rfl
@[simp] theorem setDst_slow (k : Nat) (v : Dst) : (s.setDst k v).slow = s.slow := rfl
@[simp] theorem setDst_edge (k : Nat) (v : Dst) : (s.setDst k v).edge = s.edge := rfl
@[simp] theorem setDst_resp (k : Nat) (v : Dst) : (s.setDst k v).resp = s.resp := rfl
@[simp] theorem setDst_answered (k : Nat) (v : Dst) : (s.setDst k v).answered = s.answered := rfl
@[simp] theorem setDst_regTag (k : Nat) (v : Dst) : (s.setDst k v).regTag = s.regTag := rfl
@[simp] theorem setDst_wins (k : Nat) (v : Dst) : (s.setDst k v).wins = s.wins := rfl
@[simp] theorem setDst_ticks (k : Nat) (v : Dst) : (s.setDst k v).ticks = s.ticks := rfl
@[simp] theorem setDst_tickAt (k : Nat) (v : Dst) : (s.setDst k v).tickAt = s.tickAt := rfl
@[simp] theorem setDst_ins (k : Nat) (v : Dst) : (s.setDst k v).ins = s.ins := rfl
@[simp] theorem setDst_fifo (k : Nat) (v : Dst) : (s.setDst k v).fifo = s.fifo := rfl
@[simp] theorem setDst_fab (k : Nat) (v : Dst) : (s.setDst k v).fab = s.fab := rfl
@[simp] theorem setDst_rq (k : Nat) (v : Dst) : (s.setDst k v).rq = s.rq := rfl
@[simp] theorem setDst_lastMsg (k : Nat) (v : Dst) : (s.setDst k v).lastMsg = s.lastMsg := rfl
@[simp] theorem setDst_srcs (k : Nat) (v : Dst) : (s.setDst k v).srcs = s.srcs := rfl
@[simp] theorem setDst_banks (k : Nat) (v : Dst) : (s.setDst k v).banks = s.banks := rfl
@[simp] theorem setDst_usage (k : Nat) (v : Dst) : (s.setDst k v).usage = s.usage := rfl
@[simp] theorem setDst_decayAt (k : Nat) (v : Dst) : (s.setDst k v).decayAt = s.decayAt := rfl
@[simp] theorem setDst_bases (k : Nat) (v : Dst) : (s.setDst k v).bases = s.bases := rfl
@[simp] theorem setDst_ctxs (k : Nat) (v : Dst) : (s.setDst k v).ctxs = s.ctxs := rfl
@[simp] theorem setDst_occs (k : Nat) (v : Dst) : (s.setDst k v).occs = s.occs := rfl
@[simp] theorem setDst_occNext (k : Nat) (v : Dst) : (s.setDst k v).occNext = s.occNext := rfl
@[simp] theorem setDst_engs (k : Nat) (v : Dst) : (s.setDst k v).engs = s.engs := rfl
@[simp] theorem setDst_pools (k : Nat) (v : Dst) : (s.setDst k v).pools = s.pools := rfl
@[simp] theorem setDst_clusters (k : Nat) (v : Dst) : (s.setDst k v).clusters = s.clusters := rfl
@[simp] theorem setDst_locks (k : Nat) (v : Dst) : (s.setDst k v).locks = s.locks := rfl
@[simp] theorem setDst_seqs (k : Nat) (v : Dst) : (s.setDst k v).seqs = s.seqs := rfl
@[simp] theorem setDst_seqNext (k : Nat) (v : Dst) : (s.setDst k v).seqNext = s.seqNext := rfl
@[simp] theorem setDst_arbs (k : Nat) (v : Dst) : (s.setDst k v).arbs = s.arbs := rfl
@[simp] theorem setDst_safeQ (k : Nat) (v : Dst) : (s.setDst k v).safeQ = s.safeQ := rfl
@[simp] theorem setDst_safeAt (k : Nat) (v : Dst) : (s.setDst k v).safeAt = s.safeAt := rfl
@[simp] theorem setDst_outAt (k : Nat) (v : Dst) : (s.setDst k v).outAt = s.outAt := rfl
@[simp] theorem setDst_stallRun (k : Nat) (v : Dst) : (s.setDst k v).stallRun = s.stallRun := rfl
@[simp] theorem setDst_outLast (k : Nat) (v : Dst) : (s.setDst k v).outLast = s.outLast := rfl
@[simp] theorem setDst_flush (k : Nat) (v : Dst) : (s.setDst k v).flush = s.flush := rfl
@[simp] theorem setDst_mapStat (k : Nat) (v : Dst) : (s.setDst k v).mapStat = s.mapStat := rfl
@[simp] theorem setDst_mapHeld (k : Nat) (v : Dst) : (s.setDst k v).mapHeld = s.mapHeld := rfl
@[simp] theorem setDst_ldr (k : Nat) (v : Dst) : (s.setDst k v).ldr = s.ldr := rfl
@[simp] theorem setDst_pwr (k : Nat) (v : Dst) : (s.setDst k v).pwr = s.pwr := rfl
@[simp] theorem setDst_mir (k : Nat) (v : Dst) : (s.setDst k v).mir = s.mir := rfl
@[simp] theorem setDst_snt (k : Nat) (v : Dst) : (s.setDst k v).snt = s.snt := rfl
@[simp] theorem setDst_log (k : Nat) (v : Dst) : (s.setDst k v).log = s.log := rfl
@[simp] theorem setDst_pending (k : Nat) (v : Dst) : (s.setDst k v).pending = s.pending := rfl
@[simp] theorem setDst_free (k : Nat) (v : Dst) : (s.setDst k v).free = s.free := rfl

/-! ## setBank -/

@[simp] theorem setBank_rank (k : Nat) (v : Bank) : (s.setBank k v).rank = s.rank := rfl
@[simp] theorem setBank_slowEdge (k : Nat) (v : Bank) : (s.setBank k v).slowEdge = s.slowEdge := rfl
@[simp] theorem setBank_regs (k : Nat) (v : Bank) : (s.setBank k v).regs = s.regs := rfl
@[simp] theorem setBank_tbl (k : Nat) (v : Bank) : (s.setBank k v).tbl = s.tbl := rfl
@[simp] theorem setBank_shadowTbl (k : Nat) (v : Bank) : (s.setBank k v).shadowTbl = s.shadowTbl := rfl
@[simp] theorem setBank_slow (k : Nat) (v : Bank) : (s.setBank k v).slow = s.slow := rfl
@[simp] theorem setBank_edge (k : Nat) (v : Bank) : (s.setBank k v).edge = s.edge := rfl
@[simp] theorem setBank_resp (k : Nat) (v : Bank) : (s.setBank k v).resp = s.resp := rfl
@[simp] theorem setBank_answered (k : Nat) (v : Bank) : (s.setBank k v).answered = s.answered := rfl
@[simp] theorem setBank_regTag (k : Nat) (v : Bank) : (s.setBank k v).regTag = s.regTag := rfl
@[simp] theorem setBank_wins (k : Nat) (v : Bank) : (s.setBank k v).wins = s.wins := rfl
@[simp] theorem setBank_ticks (k : Nat) (v : Bank) : (s.setBank k v).ticks = s.ticks := rfl
@[simp] theorem setBank_tickAt (k : Nat) (v : Bank) : (s.setBank k v).tickAt = s.tickAt := rfl
@[simp] theorem setBank_ins (k : Nat) (v : Bank) : (s.setBank k v).ins = s.ins := rfl
@[simp] theorem setBank_fifo (k : Nat) (v : Bank) : (s.setBank k v).fifo = s.fifo := rfl
@[simp] theorem setBank_fab (k : Nat) (v : Bank) : (s.setBank k v).fab = s.fab := rfl
@[simp] theorem setBank_rq (k : Nat) (v : Bank) : (s.setBank k v).rq = s.rq := rfl
@[simp] theorem setBank_lastMsg (k : Nat) (v : Bank) : (s.setBank k v).lastMsg = s.lastMsg := rfl
@[simp] theorem setBank_srcs (k : Nat) (v : Bank) : (s.setBank k v).srcs = s.srcs := rfl
@[simp] theorem setBank_dsts (k : Nat) (v : Bank) : (s.setBank k v).dsts = s.dsts := rfl
@[simp] theorem setBank_usage (k : Nat) (v : Bank) : (s.setBank k v).usage = s.usage := rfl
@[simp] theorem setBank_decayAt (k : Nat) (v : Bank) : (s.setBank k v).decayAt = s.decayAt := rfl
@[simp] theorem setBank_bases (k : Nat) (v : Bank) : (s.setBank k v).bases = s.bases := rfl
@[simp] theorem setBank_ctxs (k : Nat) (v : Bank) : (s.setBank k v).ctxs = s.ctxs := rfl
@[simp] theorem setBank_occs (k : Nat) (v : Bank) : (s.setBank k v).occs = s.occs := rfl
@[simp] theorem setBank_occNext (k : Nat) (v : Bank) : (s.setBank k v).occNext = s.occNext := rfl
@[simp] theorem setBank_engs (k : Nat) (v : Bank) : (s.setBank k v).engs = s.engs := rfl
@[simp] theorem setBank_pools (k : Nat) (v : Bank) : (s.setBank k v).pools = s.pools := rfl
@[simp] theorem setBank_clusters (k : Nat) (v : Bank) : (s.setBank k v).clusters = s.clusters := rfl
@[simp] theorem setBank_locks (k : Nat) (v : Bank) : (s.setBank k v).locks = s.locks := rfl
@[simp] theorem setBank_seqs (k : Nat) (v : Bank) : (s.setBank k v).seqs = s.seqs := rfl
@[simp] theorem setBank_seqNext (k : Nat) (v : Bank) : (s.setBank k v).seqNext = s.seqNext := rfl
@[simp] theorem setBank_arbs (k : Nat) (v : Bank) : (s.setBank k v).arbs = s.arbs := rfl
@[simp] theorem setBank_safeQ (k : Nat) (v : Bank) : (s.setBank k v).safeQ = s.safeQ := rfl
@[simp] theorem setBank_safeAt (k : Nat) (v : Bank) : (s.setBank k v).safeAt = s.safeAt := rfl
@[simp] theorem setBank_outAt (k : Nat) (v : Bank) : (s.setBank k v).outAt = s.outAt := rfl
@[simp] theorem setBank_stallRun (k : Nat) (v : Bank) : (s.setBank k v).stallRun = s.stallRun := rfl
@[simp] theorem setBank_outLast (k : Nat) (v : Bank) : (s.setBank k v).outLast = s.outLast := rfl
@[simp] theorem setBank_flush (k : Nat) (v : Bank) : (s.setBank k v).flush = s.flush := rfl
@[simp] theorem setBank_mapStat (k : Nat) (v : Bank) : (s.setBank k v).mapStat = s.mapStat := rfl
@[simp] theorem setBank_mapHeld (k : Nat) (v : Bank) : (s.setBank k v).mapHeld = s.mapHeld := rfl
@[simp] theorem setBank_ldr (k : Nat) (v : Bank) : (s.setBank k v).ldr = s.ldr := rfl
@[simp] theorem setBank_pwr (k : Nat) (v : Bank) : (s.setBank k v).pwr = s.pwr := rfl
@[simp] theorem setBank_mir (k : Nat) (v : Bank) : (s.setBank k v).mir = s.mir := rfl
@[simp] theorem setBank_snt (k : Nat) (v : Bank) : (s.setBank k v).snt = s.snt := rfl
@[simp] theorem setBank_log (k : Nat) (v : Bank) : (s.setBank k v).log = s.log := rfl
@[simp] theorem setBank_pending (k : Nat) (v : Bank) : (s.setBank k v).pending = s.pending := rfl
@[simp] theorem setBank_free (k : Nat) (v : Bank) : (s.setBank k v).free = s.free := rfl

/-! ## setBase -/

@[simp] theorem setBase_rank (k : Nat) (v : Base) : (s.setBase k v).rank = s.rank := rfl
@[simp] theorem setBase_slowEdge (k : Nat) (v : Base) : (s.setBase k v).slowEdge = s.slowEdge := rfl
@[simp] theorem setBase_regs (k : Nat) (v : Base) : (s.setBase k v).regs = s.regs := rfl
@[simp] theorem setBase_tbl (k : Nat) (v : Base) : (s.setBase k v).tbl = s.tbl := rfl
@[simp] theorem setBase_shadowTbl (k : Nat) (v : Base) : (s.setBase k v).shadowTbl = s.shadowTbl := rfl
@[simp] theorem setBase_slow (k : Nat) (v : Base) : (s.setBase k v).slow = s.slow := rfl
@[simp] theorem setBase_edge (k : Nat) (v : Base) : (s.setBase k v).edge = s.edge := rfl
@[simp] theorem setBase_resp (k : Nat) (v : Base) : (s.setBase k v).resp = s.resp := rfl
@[simp] theorem setBase_answered (k : Nat) (v : Base) : (s.setBase k v).answered = s.answered := rfl
@[simp] theorem setBase_regTag (k : Nat) (v : Base) : (s.setBase k v).regTag = s.regTag := rfl
@[simp] theorem setBase_wins (k : Nat) (v : Base) : (s.setBase k v).wins = s.wins := rfl
@[simp] theorem setBase_ticks (k : Nat) (v : Base) : (s.setBase k v).ticks = s.ticks := rfl
@[simp] theorem setBase_tickAt (k : Nat) (v : Base) : (s.setBase k v).tickAt = s.tickAt := rfl
@[simp] theorem setBase_ins (k : Nat) (v : Base) : (s.setBase k v).ins = s.ins := rfl
@[simp] theorem setBase_fifo (k : Nat) (v : Base) : (s.setBase k v).fifo = s.fifo := rfl
@[simp] theorem setBase_fab (k : Nat) (v : Base) : (s.setBase k v).fab = s.fab := rfl
@[simp] theorem setBase_rq (k : Nat) (v : Base) : (s.setBase k v).rq = s.rq := rfl
@[simp] theorem setBase_lastMsg (k : Nat) (v : Base) : (s.setBase k v).lastMsg = s.lastMsg := rfl
@[simp] theorem setBase_srcs (k : Nat) (v : Base) : (s.setBase k v).srcs = s.srcs := rfl
@[simp] theorem setBase_dsts (k : Nat) (v : Base) : (s.setBase k v).dsts = s.dsts := rfl
@[simp] theorem setBase_banks (k : Nat) (v : Base) : (s.setBase k v).banks = s.banks := rfl
@[simp] theorem setBase_usage (k : Nat) (v : Base) : (s.setBase k v).usage = s.usage := rfl
@[simp] theorem setBase_decayAt (k : Nat) (v : Base) : (s.setBase k v).decayAt = s.decayAt := rfl
@[simp] theorem setBase_ctxs (k : Nat) (v : Base) : (s.setBase k v).ctxs = s.ctxs := rfl
@[simp] theorem setBase_occs (k : Nat) (v : Base) : (s.setBase k v).occs = s.occs := rfl
@[simp] theorem setBase_occNext (k : Nat) (v : Base) : (s.setBase k v).occNext = s.occNext := rfl
@[simp] theorem setBase_engs (k : Nat) (v : Base) : (s.setBase k v).engs = s.engs := rfl
@[simp] theorem setBase_pools (k : Nat) (v : Base) : (s.setBase k v).pools = s.pools := rfl
@[simp] theorem setBase_clusters (k : Nat) (v : Base) : (s.setBase k v).clusters = s.clusters := rfl
@[simp] theorem setBase_locks (k : Nat) (v : Base) : (s.setBase k v).locks = s.locks := rfl
@[simp] theorem setBase_seqs (k : Nat) (v : Base) : (s.setBase k v).seqs = s.seqs := rfl
@[simp] theorem setBase_seqNext (k : Nat) (v : Base) : (s.setBase k v).seqNext = s.seqNext := rfl
@[simp] theorem setBase_arbs (k : Nat) (v : Base) : (s.setBase k v).arbs = s.arbs := rfl
@[simp] theorem setBase_safeQ (k : Nat) (v : Base) : (s.setBase k v).safeQ = s.safeQ := rfl
@[simp] theorem setBase_safeAt (k : Nat) (v : Base) : (s.setBase k v).safeAt = s.safeAt := rfl
@[simp] theorem setBase_outAt (k : Nat) (v : Base) : (s.setBase k v).outAt = s.outAt := rfl
@[simp] theorem setBase_stallRun (k : Nat) (v : Base) : (s.setBase k v).stallRun = s.stallRun := rfl
@[simp] theorem setBase_outLast (k : Nat) (v : Base) : (s.setBase k v).outLast = s.outLast := rfl
@[simp] theorem setBase_flush (k : Nat) (v : Base) : (s.setBase k v).flush = s.flush := rfl
@[simp] theorem setBase_mapStat (k : Nat) (v : Base) : (s.setBase k v).mapStat = s.mapStat := rfl
@[simp] theorem setBase_mapHeld (k : Nat) (v : Base) : (s.setBase k v).mapHeld = s.mapHeld := rfl
@[simp] theorem setBase_ldr (k : Nat) (v : Base) : (s.setBase k v).ldr = s.ldr := rfl
@[simp] theorem setBase_pwr (k : Nat) (v : Base) : (s.setBase k v).pwr = s.pwr := rfl
@[simp] theorem setBase_mir (k : Nat) (v : Base) : (s.setBase k v).mir = s.mir := rfl
@[simp] theorem setBase_snt (k : Nat) (v : Base) : (s.setBase k v).snt = s.snt := rfl
@[simp] theorem setBase_log (k : Nat) (v : Base) : (s.setBase k v).log = s.log := rfl
@[simp] theorem setBase_pending (k : Nat) (v : Base) : (s.setBase k v).pending = s.pending := rfl
@[simp] theorem setBase_free (k : Nat) (v : Base) : (s.setBase k v).free = s.free := rfl

/-! ## setCtx -/

@[simp] theorem setCtx_rank (k : Nat) (v : Ctx) : (s.setCtx k v).rank = s.rank := rfl
@[simp] theorem setCtx_slowEdge (k : Nat) (v : Ctx) : (s.setCtx k v).slowEdge = s.slowEdge := rfl
@[simp] theorem setCtx_regs (k : Nat) (v : Ctx) : (s.setCtx k v).regs = s.regs := rfl
@[simp] theorem setCtx_tbl (k : Nat) (v : Ctx) : (s.setCtx k v).tbl = s.tbl := rfl
@[simp] theorem setCtx_shadowTbl (k : Nat) (v : Ctx) : (s.setCtx k v).shadowTbl = s.shadowTbl := rfl
@[simp] theorem setCtx_slow (k : Nat) (v : Ctx) : (s.setCtx k v).slow = s.slow := rfl
@[simp] theorem setCtx_edge (k : Nat) (v : Ctx) : (s.setCtx k v).edge = s.edge := rfl
@[simp] theorem setCtx_resp (k : Nat) (v : Ctx) : (s.setCtx k v).resp = s.resp := rfl
@[simp] theorem setCtx_answered (k : Nat) (v : Ctx) : (s.setCtx k v).answered = s.answered := rfl
@[simp] theorem setCtx_regTag (k : Nat) (v : Ctx) : (s.setCtx k v).regTag = s.regTag := rfl
@[simp] theorem setCtx_wins (k : Nat) (v : Ctx) : (s.setCtx k v).wins = s.wins := rfl
@[simp] theorem setCtx_ticks (k : Nat) (v : Ctx) : (s.setCtx k v).ticks = s.ticks := rfl
@[simp] theorem setCtx_tickAt (k : Nat) (v : Ctx) : (s.setCtx k v).tickAt = s.tickAt := rfl
@[simp] theorem setCtx_ins (k : Nat) (v : Ctx) : (s.setCtx k v).ins = s.ins := rfl
@[simp] theorem setCtx_fifo (k : Nat) (v : Ctx) : (s.setCtx k v).fifo = s.fifo := rfl
@[simp] theorem setCtx_fab (k : Nat) (v : Ctx) : (s.setCtx k v).fab = s.fab := rfl
@[simp] theorem setCtx_rq (k : Nat) (v : Ctx) : (s.setCtx k v).rq = s.rq := rfl
@[simp] theorem setCtx_lastMsg (k : Nat) (v : Ctx) : (s.setCtx k v).lastMsg = s.lastMsg := rfl
@[simp] theorem setCtx_srcs (k : Nat) (v : Ctx) : (s.setCtx k v).srcs = s.srcs := rfl
@[simp] theorem setCtx_dsts (k : Nat) (v : Ctx) : (s.setCtx k v).dsts = s.dsts := rfl
@[simp] theorem setCtx_banks (k : Nat) (v : Ctx) : (s.setCtx k v).banks = s.banks := rfl
@[simp] theorem setCtx_usage (k : Nat) (v : Ctx) : (s.setCtx k v).usage = s.usage := rfl
@[simp] theorem setCtx_decayAt (k : Nat) (v : Ctx) : (s.setCtx k v).decayAt = s.decayAt := rfl
@[simp] theorem setCtx_bases (k : Nat) (v : Ctx) : (s.setCtx k v).bases = s.bases := rfl
@[simp] theorem setCtx_occs (k : Nat) (v : Ctx) : (s.setCtx k v).occs = s.occs := rfl
@[simp] theorem setCtx_occNext (k : Nat) (v : Ctx) : (s.setCtx k v).occNext = s.occNext := rfl
@[simp] theorem setCtx_engs (k : Nat) (v : Ctx) : (s.setCtx k v).engs = s.engs := rfl
@[simp] theorem setCtx_pools (k : Nat) (v : Ctx) : (s.setCtx k v).pools = s.pools := rfl
@[simp] theorem setCtx_clusters (k : Nat) (v : Ctx) : (s.setCtx k v).clusters = s.clusters := rfl
@[simp] theorem setCtx_locks (k : Nat) (v : Ctx) : (s.setCtx k v).locks = s.locks := rfl
@[simp] theorem setCtx_seqs (k : Nat) (v : Ctx) : (s.setCtx k v).seqs = s.seqs := rfl
@[simp] theorem setCtx_seqNext (k : Nat) (v : Ctx) : (s.setCtx k v).seqNext = s.seqNext := rfl
@[simp] theorem setCtx_arbs (k : Nat) (v : Ctx) : (s.setCtx k v).arbs = s.arbs := rfl
@[simp] theorem setCtx_safeQ (k : Nat) (v : Ctx) : (s.setCtx k v).safeQ = s.safeQ := rfl
@[simp] theorem setCtx_safeAt (k : Nat) (v : Ctx) : (s.setCtx k v).safeAt = s.safeAt := rfl
@[simp] theorem setCtx_outAt (k : Nat) (v : Ctx) : (s.setCtx k v).outAt = s.outAt := rfl
@[simp] theorem setCtx_stallRun (k : Nat) (v : Ctx) : (s.setCtx k v).stallRun = s.stallRun := rfl
@[simp] theorem setCtx_outLast (k : Nat) (v : Ctx) : (s.setCtx k v).outLast = s.outLast := rfl
@[simp] theorem setCtx_flush (k : Nat) (v : Ctx) : (s.setCtx k v).flush = s.flush := rfl
@[simp] theorem setCtx_mapStat (k : Nat) (v : Ctx) : (s.setCtx k v).mapStat = s.mapStat := rfl
@[simp] theorem setCtx_mapHeld (k : Nat) (v : Ctx) : (s.setCtx k v).mapHeld = s.mapHeld := rfl
@[simp] theorem setCtx_ldr (k : Nat) (v : Ctx) : (s.setCtx k v).ldr = s.ldr := rfl
@[simp] theorem setCtx_pwr (k : Nat) (v : Ctx) : (s.setCtx k v).pwr = s.pwr := rfl
@[simp] theorem setCtx_mir (k : Nat) (v : Ctx) : (s.setCtx k v).mir = s.mir := rfl
@[simp] theorem setCtx_snt (k : Nat) (v : Ctx) : (s.setCtx k v).snt = s.snt := rfl
@[simp] theorem setCtx_log (k : Nat) (v : Ctx) : (s.setCtx k v).log = s.log := rfl
@[simp] theorem setCtx_pending (k : Nat) (v : Ctx) : (s.setCtx k v).pending = s.pending := rfl
@[simp] theorem setCtx_free (k : Nat) (v : Ctx) : (s.setCtx k v).free = s.free := rfl

/-! ## setEng -/

@[simp] theorem setEng_rank (k : Nat) (v : Eng) : (s.setEng k v).rank = s.rank := rfl
@[simp] theorem setEng_slowEdge (k : Nat) (v : Eng) : (s.setEng k v).slowEdge = s.slowEdge := rfl
@[simp] theorem setEng_regs (k : Nat) (v : Eng) : (s.setEng k v).regs = s.regs := rfl
@[simp] theorem setEng_tbl (k : Nat) (v : Eng) : (s.setEng k v).tbl = s.tbl := rfl
@[simp] theorem setEng_shadowTbl (k : Nat) (v : Eng) : (s.setEng k v).shadowTbl = s.shadowTbl := rfl
@[simp] theorem setEng_slow (k : Nat) (v : Eng) : (s.setEng k v).slow = s.slow := rfl
@[simp] theorem setEng_edge (k : Nat) (v : Eng) : (s.setEng k v).edge = s.edge := rfl
@[simp] theorem setEng_resp (k : Nat) (v : Eng) : (s.setEng k v).resp = s.resp := rfl
@[simp] theorem setEng_answered (k : Nat) (v : Eng) : (s.setEng k v).answered = s.answered := rfl
@[simp] theorem setEng_regTag (k : Nat) (v : Eng) : (s.setEng k v).regTag = s.regTag := rfl
@[simp] theorem setEng_wins (k : Nat) (v : Eng) : (s.setEng k v).wins = s.wins := rfl
@[simp] theorem setEng_ticks (k : Nat) (v : Eng) : (s.setEng k v).ticks = s.ticks := rfl
@[simp] theorem setEng_tickAt (k : Nat) (v : Eng) : (s.setEng k v).tickAt = s.tickAt := rfl
@[simp] theorem setEng_ins (k : Nat) (v : Eng) : (s.setEng k v).ins = s.ins := rfl
@[simp] theorem setEng_fifo (k : Nat) (v : Eng) : (s.setEng k v).fifo = s.fifo := rfl
@[simp] theorem setEng_fab (k : Nat) (v : Eng) : (s.setEng k v).fab = s.fab := rfl
@[simp] theorem setEng_rq (k : Nat) (v : Eng) : (s.setEng k v).rq = s.rq := rfl
@[simp] theorem setEng_lastMsg (k : Nat) (v : Eng) : (s.setEng k v).lastMsg = s.lastMsg := rfl
@[simp] theorem setEng_srcs (k : Nat) (v : Eng) : (s.setEng k v).srcs = s.srcs := rfl
@[simp] theorem setEng_dsts (k : Nat) (v : Eng) : (s.setEng k v).dsts = s.dsts := rfl
@[simp] theorem setEng_banks (k : Nat) (v : Eng) : (s.setEng k v).banks = s.banks := rfl
@[simp] theorem setEng_usage (k : Nat) (v : Eng) : (s.setEng k v).usage = s.usage := rfl
@[simp] theorem setEng_decayAt (k : Nat) (v : Eng) : (s.setEng k v).decayAt = s.decayAt := rfl
@[simp] theorem setEng_bases (k : Nat) (v : Eng) : (s.setEng k v).bases = s.bases := rfl
@[simp] theorem setEng_ctxs (k : Nat) (v : Eng) : (s.setEng k v).ctxs = s.ctxs := rfl
@[simp] theorem setEng_occs (k : Nat) (v : Eng) : (s.setEng k v).occs = s.occs := rfl
@[simp] theorem setEng_occNext (k : Nat) (v : Eng) : (s.setEng k v).occNext = s.occNext := rfl
@[simp] theorem setEng_pools (k : Nat) (v : Eng) : (s.setEng k v).pools = s.pools := rfl
@[simp] theorem setEng_clusters (k : Nat) (v : Eng) : (s.setEng k v).clusters = s.clusters := rfl
@[simp] theorem setEng_locks (k : Nat) (v : Eng) : (s.setEng k v).locks = s.locks := rfl
@[simp] theorem setEng_seqs (k : Nat) (v : Eng) : (s.setEng k v).seqs = s.seqs := rfl
@[simp] theorem setEng_seqNext (k : Nat) (v : Eng) : (s.setEng k v).seqNext = s.seqNext := rfl
@[simp] theorem setEng_arbs (k : Nat) (v : Eng) : (s.setEng k v).arbs = s.arbs := rfl
@[simp] theorem setEng_safeQ (k : Nat) (v : Eng) : (s.setEng k v).safeQ = s.safeQ := rfl
@[simp] theorem setEng_safeAt (k : Nat) (v : Eng) : (s.setEng k v).safeAt = s.safeAt := rfl
@[simp] theorem setEng_outAt (k : Nat) (v : Eng) : (s.setEng k v).outAt = s.outAt := rfl
@[simp] theorem setEng_stallRun (k : Nat) (v : Eng) : (s.setEng k v).stallRun = s.stallRun := rfl
@[simp] theorem setEng_outLast (k : Nat) (v : Eng) : (s.setEng k v).outLast = s.outLast := rfl
@[simp] theorem setEng_flush (k : Nat) (v : Eng) : (s.setEng k v).flush = s.flush := rfl
@[simp] theorem setEng_mapStat (k : Nat) (v : Eng) : (s.setEng k v).mapStat = s.mapStat := rfl
@[simp] theorem setEng_mapHeld (k : Nat) (v : Eng) : (s.setEng k v).mapHeld = s.mapHeld := rfl
@[simp] theorem setEng_ldr (k : Nat) (v : Eng) : (s.setEng k v).ldr = s.ldr := rfl
@[simp] theorem setEng_pwr (k : Nat) (v : Eng) : (s.setEng k v).pwr = s.pwr := rfl
@[simp] theorem setEng_mir (k : Nat) (v : Eng) : (s.setEng k v).mir = s.mir := rfl
@[simp] theorem setEng_snt (k : Nat) (v : Eng) : (s.setEng k v).snt = s.snt := rfl
@[simp] theorem setEng_log (k : Nat) (v : Eng) : (s.setEng k v).log = s.log := rfl
@[simp] theorem setEng_pending (k : Nat) (v : Eng) : (s.setEng k v).pending = s.pending := rfl
@[simp] theorem setEng_free (k : Nat) (v : Eng) : (s.setEng k v).free = s.free := rfl

/-! ## setCluster -/

@[simp] theorem setCluster_rank (k : Nat) (v : Cluster) : (s.setCluster k v).rank = s.rank := rfl
@[simp] theorem setCluster_slowEdge (k : Nat) (v : Cluster) : (s.setCluster k v).slowEdge = s.slowEdge := rfl
@[simp] theorem setCluster_regs (k : Nat) (v : Cluster) : (s.setCluster k v).regs = s.regs := rfl
@[simp] theorem setCluster_tbl (k : Nat) (v : Cluster) : (s.setCluster k v).tbl = s.tbl := rfl
@[simp] theorem setCluster_shadowTbl (k : Nat) (v : Cluster) : (s.setCluster k v).shadowTbl = s.shadowTbl := rfl
@[simp] theorem setCluster_slow (k : Nat) (v : Cluster) : (s.setCluster k v).slow = s.slow := rfl
@[simp] theorem setCluster_edge (k : Nat) (v : Cluster) : (s.setCluster k v).edge = s.edge := rfl
@[simp] theorem setCluster_resp (k : Nat) (v : Cluster) : (s.setCluster k v).resp = s.resp := rfl
@[simp] theorem setCluster_answered (k : Nat) (v : Cluster) : (s.setCluster k v).answered = s.answered := rfl
@[simp] theorem setCluster_regTag (k : Nat) (v : Cluster) : (s.setCluster k v).regTag = s.regTag := rfl
@[simp] theorem setCluster_wins (k : Nat) (v : Cluster) : (s.setCluster k v).wins = s.wins := rfl
@[simp] theorem setCluster_ticks (k : Nat) (v : Cluster) : (s.setCluster k v).ticks = s.ticks := rfl
@[simp] theorem setCluster_tickAt (k : Nat) (v : Cluster) : (s.setCluster k v).tickAt = s.tickAt := rfl
@[simp] theorem setCluster_ins (k : Nat) (v : Cluster) : (s.setCluster k v).ins = s.ins := rfl
@[simp] theorem setCluster_fifo (k : Nat) (v : Cluster) : (s.setCluster k v).fifo = s.fifo := rfl
@[simp] theorem setCluster_fab (k : Nat) (v : Cluster) : (s.setCluster k v).fab = s.fab := rfl
@[simp] theorem setCluster_rq (k : Nat) (v : Cluster) : (s.setCluster k v).rq = s.rq := rfl
@[simp] theorem setCluster_lastMsg (k : Nat) (v : Cluster) : (s.setCluster k v).lastMsg = s.lastMsg := rfl
@[simp] theorem setCluster_srcs (k : Nat) (v : Cluster) : (s.setCluster k v).srcs = s.srcs := rfl
@[simp] theorem setCluster_dsts (k : Nat) (v : Cluster) : (s.setCluster k v).dsts = s.dsts := rfl
@[simp] theorem setCluster_banks (k : Nat) (v : Cluster) : (s.setCluster k v).banks = s.banks := rfl
@[simp] theorem setCluster_usage (k : Nat) (v : Cluster) : (s.setCluster k v).usage = s.usage := rfl
@[simp] theorem setCluster_decayAt (k : Nat) (v : Cluster) : (s.setCluster k v).decayAt = s.decayAt := rfl
@[simp] theorem setCluster_bases (k : Nat) (v : Cluster) : (s.setCluster k v).bases = s.bases := rfl
@[simp] theorem setCluster_ctxs (k : Nat) (v : Cluster) : (s.setCluster k v).ctxs = s.ctxs := rfl
@[simp] theorem setCluster_occs (k : Nat) (v : Cluster) : (s.setCluster k v).occs = s.occs := rfl
@[simp] theorem setCluster_occNext (k : Nat) (v : Cluster) : (s.setCluster k v).occNext = s.occNext := rfl
@[simp] theorem setCluster_engs (k : Nat) (v : Cluster) : (s.setCluster k v).engs = s.engs := rfl
@[simp] theorem setCluster_pools (k : Nat) (v : Cluster) : (s.setCluster k v).pools = s.pools := rfl
@[simp] theorem setCluster_locks (k : Nat) (v : Cluster) : (s.setCluster k v).locks = s.locks := rfl
@[simp] theorem setCluster_seqs (k : Nat) (v : Cluster) : (s.setCluster k v).seqs = s.seqs := rfl
@[simp] theorem setCluster_seqNext (k : Nat) (v : Cluster) : (s.setCluster k v).seqNext = s.seqNext := rfl
@[simp] theorem setCluster_arbs (k : Nat) (v : Cluster) : (s.setCluster k v).arbs = s.arbs := rfl
@[simp] theorem setCluster_safeQ (k : Nat) (v : Cluster) : (s.setCluster k v).safeQ = s.safeQ := rfl
@[simp] theorem setCluster_safeAt (k : Nat) (v : Cluster) : (s.setCluster k v).safeAt = s.safeAt := rfl
@[simp] theorem setCluster_outAt (k : Nat) (v : Cluster) : (s.setCluster k v).outAt = s.outAt := rfl
@[simp] theorem setCluster_stallRun (k : Nat) (v : Cluster) : (s.setCluster k v).stallRun = s.stallRun := rfl
@[simp] theorem setCluster_outLast (k : Nat) (v : Cluster) : (s.setCluster k v).outLast = s.outLast := rfl
@[simp] theorem setCluster_flush (k : Nat) (v : Cluster) : (s.setCluster k v).flush = s.flush := rfl
@[simp] theorem setCluster_mapStat (k : Nat) (v : Cluster) : (s.setCluster k v).mapStat = s.mapStat := rfl
@[simp] theorem setCluster_mapHeld (k : Nat) (v : Cluster) : (s.setCluster k v).mapHeld = s.mapHeld := rfl
@[simp] theorem setCluster_ldr (k : Nat) (v : Cluster) : (s.setCluster k v).ldr = s.ldr := rfl
@[simp] theorem setCluster_pwr (k : Nat) (v : Cluster) : (s.setCluster k v).pwr = s.pwr := rfl
@[simp] theorem setCluster_mir (k : Nat) (v : Cluster) : (s.setCluster k v).mir = s.mir := rfl
@[simp] theorem setCluster_snt (k : Nat) (v : Cluster) : (s.setCluster k v).snt = s.snt := rfl
@[simp] theorem setCluster_log (k : Nat) (v : Cluster) : (s.setCluster k v).log = s.log := rfl
@[simp] theorem setCluster_pending (k : Nat) (v : Cluster) : (s.setCluster k v).pending = s.pending := rfl
@[simp] theorem setCluster_free (k : Nat) (v : Cluster) : (s.setCluster k v).free = s.free := rfl

/-! ## setLock -/

@[simp] theorem setLock_rank (k : Nat) (v : Lock) : (s.setLock k v).rank = s.rank := rfl
@[simp] theorem setLock_slowEdge (k : Nat) (v : Lock) : (s.setLock k v).slowEdge = s.slowEdge := rfl
@[simp] theorem setLock_regs (k : Nat) (v : Lock) : (s.setLock k v).regs = s.regs := rfl
@[simp] theorem setLock_tbl (k : Nat) (v : Lock) : (s.setLock k v).tbl = s.tbl := rfl
@[simp] theorem setLock_shadowTbl (k : Nat) (v : Lock) : (s.setLock k v).shadowTbl = s.shadowTbl := rfl
@[simp] theorem setLock_slow (k : Nat) (v : Lock) : (s.setLock k v).slow = s.slow := rfl
@[simp] theorem setLock_edge (k : Nat) (v : Lock) : (s.setLock k v).edge = s.edge := rfl
@[simp] theorem setLock_resp (k : Nat) (v : Lock) : (s.setLock k v).resp = s.resp := rfl
@[simp] theorem setLock_answered (k : Nat) (v : Lock) : (s.setLock k v).answered = s.answered := rfl
@[simp] theorem setLock_regTag (k : Nat) (v : Lock) : (s.setLock k v).regTag = s.regTag := rfl
@[simp] theorem setLock_wins (k : Nat) (v : Lock) : (s.setLock k v).wins = s.wins := rfl
@[simp] theorem setLock_ticks (k : Nat) (v : Lock) : (s.setLock k v).ticks = s.ticks := rfl
@[simp] theorem setLock_tickAt (k : Nat) (v : Lock) : (s.setLock k v).tickAt = s.tickAt := rfl
@[simp] theorem setLock_ins (k : Nat) (v : Lock) : (s.setLock k v).ins = s.ins := rfl
@[simp] theorem setLock_fifo (k : Nat) (v : Lock) : (s.setLock k v).fifo = s.fifo := rfl
@[simp] theorem setLock_fab (k : Nat) (v : Lock) : (s.setLock k v).fab = s.fab := rfl
@[simp] theorem setLock_rq (k : Nat) (v : Lock) : (s.setLock k v).rq = s.rq := rfl
@[simp] theorem setLock_lastMsg (k : Nat) (v : Lock) : (s.setLock k v).lastMsg = s.lastMsg := rfl
@[simp] theorem setLock_srcs (k : Nat) (v : Lock) : (s.setLock k v).srcs = s.srcs := rfl
@[simp] theorem setLock_dsts (k : Nat) (v : Lock) : (s.setLock k v).dsts = s.dsts := rfl
@[simp] theorem setLock_banks (k : Nat) (v : Lock) : (s.setLock k v).banks = s.banks := rfl
@[simp] theorem setLock_usage (k : Nat) (v : Lock) : (s.setLock k v).usage = s.usage := rfl
@[simp] theorem setLock_decayAt (k : Nat) (v : Lock) : (s.setLock k v).decayAt = s.decayAt := rfl
@[simp] theorem setLock_bases (k : Nat) (v : Lock) : (s.setLock k v).bases = s.bases := rfl
@[simp] theorem setLock_ctxs (k : Nat) (v : Lock) : (s.setLock k v).ctxs = s.ctxs := rfl
@[simp] theorem setLock_occs (k : Nat) (v : Lock) : (s.setLock k v).occs = s.occs := rfl
@[simp] theorem setLock_occNext (k : Nat) (v : Lock) : (s.setLock k v).occNext = s.occNext := rfl
@[simp] theorem setLock_engs (k : Nat) (v : Lock) : (s.setLock k v).engs = s.engs := rfl
@[simp] theorem setLock_pools (k : Nat) (v : Lock) : (s.setLock k v).pools = s.pools := rfl
@[simp] theorem setLock_clusters (k : Nat) (v : Lock) : (s.setLock k v).clusters = s.clusters := rfl
@[simp] theorem setLock_seqs (k : Nat) (v : Lock) : (s.setLock k v).seqs = s.seqs := rfl
@[simp] theorem setLock_seqNext (k : Nat) (v : Lock) : (s.setLock k v).seqNext = s.seqNext := rfl
@[simp] theorem setLock_arbs (k : Nat) (v : Lock) : (s.setLock k v).arbs = s.arbs := rfl
@[simp] theorem setLock_safeQ (k : Nat) (v : Lock) : (s.setLock k v).safeQ = s.safeQ := rfl
@[simp] theorem setLock_safeAt (k : Nat) (v : Lock) : (s.setLock k v).safeAt = s.safeAt := rfl
@[simp] theorem setLock_outAt (k : Nat) (v : Lock) : (s.setLock k v).outAt = s.outAt := rfl
@[simp] theorem setLock_stallRun (k : Nat) (v : Lock) : (s.setLock k v).stallRun = s.stallRun := rfl
@[simp] theorem setLock_outLast (k : Nat) (v : Lock) : (s.setLock k v).outLast = s.outLast := rfl
@[simp] theorem setLock_flush (k : Nat) (v : Lock) : (s.setLock k v).flush = s.flush := rfl
@[simp] theorem setLock_mapStat (k : Nat) (v : Lock) : (s.setLock k v).mapStat = s.mapStat := rfl
@[simp] theorem setLock_mapHeld (k : Nat) (v : Lock) : (s.setLock k v).mapHeld = s.mapHeld := rfl
@[simp] theorem setLock_ldr (k : Nat) (v : Lock) : (s.setLock k v).ldr = s.ldr := rfl
@[simp] theorem setLock_pwr (k : Nat) (v : Lock) : (s.setLock k v).pwr = s.pwr := rfl
@[simp] theorem setLock_mir (k : Nat) (v : Lock) : (s.setLock k v).mir = s.mir := rfl
@[simp] theorem setLock_snt (k : Nat) (v : Lock) : (s.setLock k v).snt = s.snt := rfl
@[simp] theorem setLock_log (k : Nat) (v : Lock) : (s.setLock k v).log = s.log := rfl
@[simp] theorem setLock_pending (k : Nat) (v : Lock) : (s.setLock k v).pending = s.pending := rfl
@[simp] theorem setLock_free (k : Nat) (v : Lock) : (s.setLock k v).free = s.free := rfl

/-! ## setArb -/

@[simp] theorem setArb_rank (k : Nat) (v : Arb) : (s.setArb k v).rank = s.rank := rfl
@[simp] theorem setArb_slowEdge (k : Nat) (v : Arb) : (s.setArb k v).slowEdge = s.slowEdge := rfl
@[simp] theorem setArb_regs (k : Nat) (v : Arb) : (s.setArb k v).regs = s.regs := rfl
@[simp] theorem setArb_tbl (k : Nat) (v : Arb) : (s.setArb k v).tbl = s.tbl := rfl
@[simp] theorem setArb_shadowTbl (k : Nat) (v : Arb) : (s.setArb k v).shadowTbl = s.shadowTbl := rfl
@[simp] theorem setArb_slow (k : Nat) (v : Arb) : (s.setArb k v).slow = s.slow := rfl
@[simp] theorem setArb_edge (k : Nat) (v : Arb) : (s.setArb k v).edge = s.edge := rfl
@[simp] theorem setArb_resp (k : Nat) (v : Arb) : (s.setArb k v).resp = s.resp := rfl
@[simp] theorem setArb_answered (k : Nat) (v : Arb) : (s.setArb k v).answered = s.answered := rfl
@[simp] theorem setArb_regTag (k : Nat) (v : Arb) : (s.setArb k v).regTag = s.regTag := rfl
@[simp] theorem setArb_wins (k : Nat) (v : Arb) : (s.setArb k v).wins = s.wins := rfl
@[simp] theorem setArb_ticks (k : Nat) (v : Arb) : (s.setArb k v).ticks = s.ticks := rfl
@[simp] theorem setArb_tickAt (k : Nat) (v : Arb) : (s.setArb k v).tickAt = s.tickAt := rfl
@[simp] theorem setArb_ins (k : Nat) (v : Arb) : (s.setArb k v).ins = s.ins := rfl
@[simp] theorem setArb_fifo (k : Nat) (v : Arb) : (s.setArb k v).fifo = s.fifo := rfl
@[simp] theorem setArb_fab (k : Nat) (v : Arb) : (s.setArb k v).fab = s.fab := rfl
@[simp] theorem setArb_rq (k : Nat) (v : Arb) : (s.setArb k v).rq = s.rq := rfl
@[simp] theorem setArb_lastMsg (k : Nat) (v : Arb) : (s.setArb k v).lastMsg = s.lastMsg := rfl
@[simp] theorem setArb_srcs (k : Nat) (v : Arb) : (s.setArb k v).srcs = s.srcs := rfl
@[simp] theorem setArb_dsts (k : Nat) (v : Arb) : (s.setArb k v).dsts = s.dsts := rfl
@[simp] theorem setArb_banks (k : Nat) (v : Arb) : (s.setArb k v).banks = s.banks := rfl
@[simp] theorem setArb_usage (k : Nat) (v : Arb) : (s.setArb k v).usage = s.usage := rfl
@[simp] theorem setArb_decayAt (k : Nat) (v : Arb) : (s.setArb k v).decayAt = s.decayAt := rfl
@[simp] theorem setArb_bases (k : Nat) (v : Arb) : (s.setArb k v).bases = s.bases := rfl
@[simp] theorem setArb_ctxs (k : Nat) (v : Arb) : (s.setArb k v).ctxs = s.ctxs := rfl
@[simp] theorem setArb_occs (k : Nat) (v : Arb) : (s.setArb k v).occs = s.occs := rfl
@[simp] theorem setArb_occNext (k : Nat) (v : Arb) : (s.setArb k v).occNext = s.occNext := rfl
@[simp] theorem setArb_engs (k : Nat) (v : Arb) : (s.setArb k v).engs = s.engs := rfl
@[simp] theorem setArb_pools (k : Nat) (v : Arb) : (s.setArb k v).pools = s.pools := rfl
@[simp] theorem setArb_clusters (k : Nat) (v : Arb) : (s.setArb k v).clusters = s.clusters := rfl
@[simp] theorem setArb_locks (k : Nat) (v : Arb) : (s.setArb k v).locks = s.locks := rfl
@[simp] theorem setArb_seqs (k : Nat) (v : Arb) : (s.setArb k v).seqs = s.seqs := rfl
@[simp] theorem setArb_seqNext (k : Nat) (v : Arb) : (s.setArb k v).seqNext = s.seqNext := rfl
@[simp] theorem setArb_safeQ (k : Nat) (v : Arb) : (s.setArb k v).safeQ = s.safeQ := rfl
@[simp] theorem setArb_safeAt (k : Nat) (v : Arb) : (s.setArb k v).safeAt = s.safeAt := rfl
@[simp] theorem setArb_outAt (k : Nat) (v : Arb) : (s.setArb k v).outAt = s.outAt := rfl
@[simp] theorem setArb_stallRun (k : Nat) (v : Arb) : (s.setArb k v).stallRun = s.stallRun := rfl
@[simp] theorem setArb_outLast (k : Nat) (v : Arb) : (s.setArb k v).outLast = s.outLast := rfl
@[simp] theorem setArb_flush (k : Nat) (v : Arb) : (s.setArb k v).flush = s.flush := rfl
@[simp] theorem setArb_mapStat (k : Nat) (v : Arb) : (s.setArb k v).mapStat = s.mapStat := rfl
@[simp] theorem setArb_mapHeld (k : Nat) (v : Arb) : (s.setArb k v).mapHeld = s.mapHeld := rfl
@[simp] theorem setArb_ldr (k : Nat) (v : Arb) : (s.setArb k v).ldr = s.ldr := rfl
@[simp] theorem setArb_pwr (k : Nat) (v : Arb) : (s.setArb k v).pwr = s.pwr := rfl
@[simp] theorem setArb_mir (k : Nat) (v : Arb) : (s.setArb k v).mir = s.mir := rfl
@[simp] theorem setArb_snt (k : Nat) (v : Arb) : (s.setArb k v).snt = s.snt := rfl
@[simp] theorem setArb_log (k : Nat) (v : Arb) : (s.setArb k v).log = s.log := rfl
@[simp] theorem setArb_pending (k : Nat) (v : Arb) : (s.setArb k v).pending = s.pending := rfl
@[simp] theorem setArb_free (k : Nat) (v : Arb) : (s.setArb k v).free = s.free := rfl

/-! ## setWin -/

@[simp] theorem setWin_rank (k : Nat) (v : Win) : (s.setWin k v).rank = s.rank := rfl
@[simp] theorem setWin_slowEdge (k : Nat) (v : Win) : (s.setWin k v).slowEdge = s.slowEdge := rfl
@[simp] theorem setWin_regs (k : Nat) (v : Win) : (s.setWin k v).regs = s.regs := rfl
@[simp] theorem setWin_tbl (k : Nat) (v : Win) : (s.setWin k v).tbl = s.tbl := rfl
@[simp] theorem setWin_shadowTbl (k : Nat) (v : Win) : (s.setWin k v).shadowTbl = s.shadowTbl := rfl
@[simp] theorem setWin_slow (k : Nat) (v : Win) : (s.setWin k v).slow = s.slow := rfl
@[simp] theorem setWin_edge (k : Nat) (v : Win) : (s.setWin k v).edge = s.edge := rfl
@[simp] theorem setWin_resp (k : Nat) (v : Win) : (s.setWin k v).resp = s.resp := rfl
@[simp] theorem setWin_answered (k : Nat) (v : Win) : (s.setWin k v).answered = s.answered := rfl
@[simp] theorem setWin_regTag (k : Nat) (v : Win) : (s.setWin k v).regTag = s.regTag := rfl
@[simp] theorem setWin_ticks (k : Nat) (v : Win) : (s.setWin k v).ticks = s.ticks := rfl
@[simp] theorem setWin_tickAt (k : Nat) (v : Win) : (s.setWin k v).tickAt = s.tickAt := rfl
@[simp] theorem setWin_ins (k : Nat) (v : Win) : (s.setWin k v).ins = s.ins := rfl
@[simp] theorem setWin_fifo (k : Nat) (v : Win) : (s.setWin k v).fifo = s.fifo := rfl
@[simp] theorem setWin_fab (k : Nat) (v : Win) : (s.setWin k v).fab = s.fab := rfl
@[simp] theorem setWin_rq (k : Nat) (v : Win) : (s.setWin k v).rq = s.rq := rfl
@[simp] theorem setWin_lastMsg (k : Nat) (v : Win) : (s.setWin k v).lastMsg = s.lastMsg := rfl
@[simp] theorem setWin_srcs (k : Nat) (v : Win) : (s.setWin k v).srcs = s.srcs := rfl
@[simp] theorem setWin_dsts (k : Nat) (v : Win) : (s.setWin k v).dsts = s.dsts := rfl
@[simp] theorem setWin_banks (k : Nat) (v : Win) : (s.setWin k v).banks = s.banks := rfl
@[simp] theorem setWin_usage (k : Nat) (v : Win) : (s.setWin k v).usage = s.usage := rfl
@[simp] theorem setWin_decayAt (k : Nat) (v : Win) : (s.setWin k v).decayAt = s.decayAt := rfl
@[simp] theorem setWin_bases (k : Nat) (v : Win) : (s.setWin k v).bases = s.bases := rfl
@[simp] theorem setWin_ctxs (k : Nat) (v : Win) : (s.setWin k v).ctxs = s.ctxs := rfl
@[simp] theorem setWin_occs (k : Nat) (v : Win) : (s.setWin k v).occs = s.occs := rfl
@[simp] theorem setWin_occNext (k : Nat) (v : Win) : (s.setWin k v).occNext = s.occNext := rfl
@[simp] theorem setWin_engs (k : Nat) (v : Win) : (s.setWin k v).engs = s.engs := rfl
@[simp] theorem setWin_pools (k : Nat) (v : Win) : (s.setWin k v).pools = s.pools := rfl
@[simp] theorem setWin_clusters (k : Nat) (v : Win) : (s.setWin k v).clusters = s.clusters := rfl
@[simp] theorem setWin_locks (k : Nat) (v : Win) : (s.setWin k v).locks = s.locks := rfl
@[simp] theorem setWin_seqs (k : Nat) (v : Win) : (s.setWin k v).seqs = s.seqs := rfl
@[simp] theorem setWin_seqNext (k : Nat) (v : Win) : (s.setWin k v).seqNext = s.seqNext := rfl
@[simp] theorem setWin_arbs (k : Nat) (v : Win) : (s.setWin k v).arbs = s.arbs := rfl
@[simp] theorem setWin_safeQ (k : Nat) (v : Win) : (s.setWin k v).safeQ = s.safeQ := rfl
@[simp] theorem setWin_safeAt (k : Nat) (v : Win) : (s.setWin k v).safeAt = s.safeAt := rfl
@[simp] theorem setWin_outAt (k : Nat) (v : Win) : (s.setWin k v).outAt = s.outAt := rfl
@[simp] theorem setWin_stallRun (k : Nat) (v : Win) : (s.setWin k v).stallRun = s.stallRun := rfl
@[simp] theorem setWin_outLast (k : Nat) (v : Win) : (s.setWin k v).outLast = s.outLast := rfl
@[simp] theorem setWin_flush (k : Nat) (v : Win) : (s.setWin k v).flush = s.flush := rfl
@[simp] theorem setWin_mapStat (k : Nat) (v : Win) : (s.setWin k v).mapStat = s.mapStat := rfl
@[simp] theorem setWin_mapHeld (k : Nat) (v : Win) : (s.setWin k v).mapHeld = s.mapHeld := rfl
@[simp] theorem setWin_ldr (k : Nat) (v : Win) : (s.setWin k v).ldr = s.ldr := rfl
@[simp] theorem setWin_pwr (k : Nat) (v : Win) : (s.setWin k v).pwr = s.pwr := rfl
@[simp] theorem setWin_mir (k : Nat) (v : Win) : (s.setWin k v).mir = s.mir := rfl
@[simp] theorem setWin_snt (k : Nat) (v : Win) : (s.setWin k v).snt = s.snt := rfl
@[simp] theorem setWin_log (k : Nat) (v : Win) : (s.setWin k v).log = s.log := rfl
@[simp] theorem setWin_pending (k : Nat) (v : Win) : (s.setWin k v).pending = s.pending := rfl
@[simp] theorem setWin_free (k : Nat) (v : Win) : (s.setWin k v).free = s.free := rfl

/-! ## setReg -/

@[simp] theorem setReg_rank (k : Nat) (v : Word) : (s.setReg k v).rank = s.rank := rfl
@[simp] theorem setReg_slowEdge (k : Nat) (v : Word) : (s.setReg k v).slowEdge = s.slowEdge := rfl
@[simp] theorem setReg_tbl (k : Nat) (v : Word) : (s.setReg k v).tbl = s.tbl := rfl
@[simp] theorem setReg_shadowTbl (k : Nat) (v : Word) : (s.setReg k v).shadowTbl = s.shadowTbl := rfl
@[simp] theorem setReg_slow (k : Nat) (v : Word) : (s.setReg k v).slow = s.slow := rfl
@[simp] theorem setReg_edge (k : Nat) (v : Word) : (s.setReg k v).edge = s.edge := rfl
@[simp] theorem setReg_resp (k : Nat) (v : Word) : (s.setReg k v).resp = s.resp := rfl
@[simp] theorem setReg_answered (k : Nat) (v : Word) : (s.setReg k v).answered = s.answered := rfl
@[simp] theorem setReg_regTag (k : Nat) (v : Word) : (s.setReg k v).regTag = s.regTag := rfl
@[simp] theorem setReg_wins (k : Nat) (v : Word) : (s.setReg k v).wins = s.wins := rfl
@[simp] theorem setReg_ticks (k : Nat) (v : Word) : (s.setReg k v).ticks = s.ticks := rfl
@[simp] theorem setReg_tickAt (k : Nat) (v : Word) : (s.setReg k v).tickAt = s.tickAt := rfl
@[simp] theorem setReg_ins (k : Nat) (v : Word) : (s.setReg k v).ins = s.ins := rfl
@[simp] theorem setReg_fifo (k : Nat) (v : Word) : (s.setReg k v).fifo = s.fifo := rfl
@[simp] theorem setReg_fab (k : Nat) (v : Word) : (s.setReg k v).fab = s.fab := rfl
@[simp] theorem setReg_rq (k : Nat) (v : Word) : (s.setReg k v).rq = s.rq := rfl
@[simp] theorem setReg_lastMsg (k : Nat) (v : Word) : (s.setReg k v).lastMsg = s.lastMsg := rfl
@[simp] theorem setReg_srcs (k : Nat) (v : Word) : (s.setReg k v).srcs = s.srcs := rfl
@[simp] theorem setReg_dsts (k : Nat) (v : Word) : (s.setReg k v).dsts = s.dsts := rfl
@[simp] theorem setReg_banks (k : Nat) (v : Word) : (s.setReg k v).banks = s.banks := rfl
@[simp] theorem setReg_usage (k : Nat) (v : Word) : (s.setReg k v).usage = s.usage := rfl
@[simp] theorem setReg_decayAt (k : Nat) (v : Word) : (s.setReg k v).decayAt = s.decayAt := rfl
@[simp] theorem setReg_bases (k : Nat) (v : Word) : (s.setReg k v).bases = s.bases := rfl
@[simp] theorem setReg_ctxs (k : Nat) (v : Word) : (s.setReg k v).ctxs = s.ctxs := rfl
@[simp] theorem setReg_occs (k : Nat) (v : Word) : (s.setReg k v).occs = s.occs := rfl
@[simp] theorem setReg_occNext (k : Nat) (v : Word) : (s.setReg k v).occNext = s.occNext := rfl
@[simp] theorem setReg_engs (k : Nat) (v : Word) : (s.setReg k v).engs = s.engs := rfl
@[simp] theorem setReg_pools (k : Nat) (v : Word) : (s.setReg k v).pools = s.pools := rfl
@[simp] theorem setReg_clusters (k : Nat) (v : Word) : (s.setReg k v).clusters = s.clusters := rfl
@[simp] theorem setReg_locks (k : Nat) (v : Word) : (s.setReg k v).locks = s.locks := rfl
@[simp] theorem setReg_seqs (k : Nat) (v : Word) : (s.setReg k v).seqs = s.seqs := rfl
@[simp] theorem setReg_seqNext (k : Nat) (v : Word) : (s.setReg k v).seqNext = s.seqNext := rfl
@[simp] theorem setReg_arbs (k : Nat) (v : Word) : (s.setReg k v).arbs = s.arbs := rfl
@[simp] theorem setReg_safeQ (k : Nat) (v : Word) : (s.setReg k v).safeQ = s.safeQ := rfl
@[simp] theorem setReg_safeAt (k : Nat) (v : Word) : (s.setReg k v).safeAt = s.safeAt := rfl
@[simp] theorem setReg_outAt (k : Nat) (v : Word) : (s.setReg k v).outAt = s.outAt := rfl
@[simp] theorem setReg_stallRun (k : Nat) (v : Word) : (s.setReg k v).stallRun = s.stallRun := rfl
@[simp] theorem setReg_outLast (k : Nat) (v : Word) : (s.setReg k v).outLast = s.outLast := rfl
@[simp] theorem setReg_flush (k : Nat) (v : Word) : (s.setReg k v).flush = s.flush := rfl
@[simp] theorem setReg_mapStat (k : Nat) (v : Word) : (s.setReg k v).mapStat = s.mapStat := rfl
@[simp] theorem setReg_mapHeld (k : Nat) (v : Word) : (s.setReg k v).mapHeld = s.mapHeld := rfl
@[simp] theorem setReg_ldr (k : Nat) (v : Word) : (s.setReg k v).ldr = s.ldr := rfl
@[simp] theorem setReg_pwr (k : Nat) (v : Word) : (s.setReg k v).pwr = s.pwr := rfl
@[simp] theorem setReg_mir (k : Nat) (v : Word) : (s.setReg k v).mir = s.mir := rfl
@[simp] theorem setReg_snt (k : Nat) (v : Word) : (s.setReg k v).snt = s.snt := rfl
@[simp] theorem setReg_log (k : Nat) (v : Word) : (s.setReg k v).log = s.log := rfl
@[simp] theorem setReg_pending (k : Nat) (v : Word) : (s.setReg k v).pending = s.pending := rfl
@[simp] theorem setReg_free (k : Nat) (v : Word) : (s.setReg k v).free = s.free := rfl

/-! ## setTw -/

@[simp] theorem setTw_rank (t i w : Nat) (v : Word) : (s.setTw t i w v).rank = s.rank := rfl
@[simp] theorem setTw_slowEdge (t i w : Nat) (v : Word) : (s.setTw t i w v).slowEdge = s.slowEdge := rfl
@[simp] theorem setTw_regs (t i w : Nat) (v : Word) : (s.setTw t i w v).regs = s.regs := rfl
@[simp] theorem setTw_shadowTbl (t i w : Nat) (v : Word) : (s.setTw t i w v).shadowTbl = s.shadowTbl := rfl
@[simp] theorem setTw_slow (t i w : Nat) (v : Word) : (s.setTw t i w v).slow = s.slow := rfl
@[simp] theorem setTw_edge (t i w : Nat) (v : Word) : (s.setTw t i w v).edge = s.edge := rfl
@[simp] theorem setTw_resp (t i w : Nat) (v : Word) : (s.setTw t i w v).resp = s.resp := rfl
@[simp] theorem setTw_answered (t i w : Nat) (v : Word) : (s.setTw t i w v).answered = s.answered := rfl
@[simp] theorem setTw_regTag (t i w : Nat) (v : Word) : (s.setTw t i w v).regTag = s.regTag := rfl
@[simp] theorem setTw_wins (t i w : Nat) (v : Word) : (s.setTw t i w v).wins = s.wins := rfl
@[simp] theorem setTw_ticks (t i w : Nat) (v : Word) : (s.setTw t i w v).ticks = s.ticks := rfl
@[simp] theorem setTw_tickAt (t i w : Nat) (v : Word) : (s.setTw t i w v).tickAt = s.tickAt := rfl
@[simp] theorem setTw_ins (t i w : Nat) (v : Word) : (s.setTw t i w v).ins = s.ins := rfl
@[simp] theorem setTw_fifo (t i w : Nat) (v : Word) : (s.setTw t i w v).fifo = s.fifo := rfl
@[simp] theorem setTw_fab (t i w : Nat) (v : Word) : (s.setTw t i w v).fab = s.fab := rfl
@[simp] theorem setTw_rq (t i w : Nat) (v : Word) : (s.setTw t i w v).rq = s.rq := rfl
@[simp] theorem setTw_lastMsg (t i w : Nat) (v : Word) : (s.setTw t i w v).lastMsg = s.lastMsg := rfl
@[simp] theorem setTw_srcs (t i w : Nat) (v : Word) : (s.setTw t i w v).srcs = s.srcs := rfl
@[simp] theorem setTw_dsts (t i w : Nat) (v : Word) : (s.setTw t i w v).dsts = s.dsts := rfl
@[simp] theorem setTw_banks (t i w : Nat) (v : Word) : (s.setTw t i w v).banks = s.banks := rfl
@[simp] theorem setTw_usage (t i w : Nat) (v : Word) : (s.setTw t i w v).usage = s.usage := rfl
@[simp] theorem setTw_decayAt (t i w : Nat) (v : Word) : (s.setTw t i w v).decayAt = s.decayAt := rfl
@[simp] theorem setTw_bases (t i w : Nat) (v : Word) : (s.setTw t i w v).bases = s.bases := rfl
@[simp] theorem setTw_ctxs (t i w : Nat) (v : Word) : (s.setTw t i w v).ctxs = s.ctxs := rfl
@[simp] theorem setTw_occs (t i w : Nat) (v : Word) : (s.setTw t i w v).occs = s.occs := rfl
@[simp] theorem setTw_occNext (t i w : Nat) (v : Word) : (s.setTw t i w v).occNext = s.occNext := rfl
@[simp] theorem setTw_engs (t i w : Nat) (v : Word) : (s.setTw t i w v).engs = s.engs := rfl
@[simp] theorem setTw_pools (t i w : Nat) (v : Word) : (s.setTw t i w v).pools = s.pools := rfl
@[simp] theorem setTw_clusters (t i w : Nat) (v : Word) : (s.setTw t i w v).clusters = s.clusters := rfl
@[simp] theorem setTw_locks (t i w : Nat) (v : Word) : (s.setTw t i w v).locks = s.locks := rfl
@[simp] theorem setTw_seqs (t i w : Nat) (v : Word) : (s.setTw t i w v).seqs = s.seqs := rfl
@[simp] theorem setTw_seqNext (t i w : Nat) (v : Word) : (s.setTw t i w v).seqNext = s.seqNext := rfl
@[simp] theorem setTw_arbs (t i w : Nat) (v : Word) : (s.setTw t i w v).arbs = s.arbs := rfl
@[simp] theorem setTw_safeQ (t i w : Nat) (v : Word) : (s.setTw t i w v).safeQ = s.safeQ := rfl
@[simp] theorem setTw_safeAt (t i w : Nat) (v : Word) : (s.setTw t i w v).safeAt = s.safeAt := rfl
@[simp] theorem setTw_outAt (t i w : Nat) (v : Word) : (s.setTw t i w v).outAt = s.outAt := rfl
@[simp] theorem setTw_stallRun (t i w : Nat) (v : Word) : (s.setTw t i w v).stallRun = s.stallRun := rfl
@[simp] theorem setTw_outLast (t i w : Nat) (v : Word) : (s.setTw t i w v).outLast = s.outLast := rfl
@[simp] theorem setTw_flush (t i w : Nat) (v : Word) : (s.setTw t i w v).flush = s.flush := rfl
@[simp] theorem setTw_mapStat (t i w : Nat) (v : Word) : (s.setTw t i w v).mapStat = s.mapStat := rfl
@[simp] theorem setTw_mapHeld (t i w : Nat) (v : Word) : (s.setTw t i w v).mapHeld = s.mapHeld := rfl
@[simp] theorem setTw_ldr (t i w : Nat) (v : Word) : (s.setTw t i w v).ldr = s.ldr := rfl
@[simp] theorem setTw_pwr (t i w : Nat) (v : Word) : (s.setTw t i w v).pwr = s.pwr := rfl
@[simp] theorem setTw_mir (t i w : Nat) (v : Word) : (s.setTw t i w v).mir = s.mir := rfl
@[simp] theorem setTw_snt (t i w : Nat) (v : Word) : (s.setTw t i w v).snt = s.snt := rfl
@[simp] theorem setTw_log (t i w : Nat) (v : Word) : (s.setTw t i w v).log = s.log := rfl
@[simp] theorem setTw_pending (t i w : Nat) (v : Word) : (s.setTw t i w v).pending = s.pending := rfl
@[simp] theorem setTw_free (t i w : Nat) (v : Word) : (s.setTw t i w v).free = s.free := rfl

/-! ## The changes by a function -/

@[simp] theorem modIn_eq (k : Nat) (h : InSt → InSt) : s.modIn k h = s.setIn k (h (s.inp k)) := rfl
@[simp] theorem modSrc_eq (k : Nat) (h : Src → Src) : s.modSrc k h = s.setSrc k (h (s.src k)) := rfl
@[simp] theorem modDst_eq (k : Nat) (h : Dst → Dst) : s.modDst k h = s.setDst k (h (s.dst k)) := rfl
@[simp] theorem modBank_eq (k : Nat) (h : Bank → Bank) : s.modBank k h = s.setBank k (h (s.bank k)) := rfl
@[simp] theorem modBase_eq (k : Nat) (h : Base → Base) : s.modBase k h = s.setBase k (h (s.base k)) := rfl
@[simp] theorem modCtx_eq (k : Nat) (h : Ctx → Ctx) : s.modCtx k h = s.setCtx k (h (s.ctx k)) := rfl
@[simp] theorem modEng_eq (k : Nat) (h : Eng → Eng) : s.modEng k h = s.setEng k (h (s.eng k)) := rfl
@[simp] theorem modCluster_eq (k : Nat) (h : Cluster → Cluster) : s.modCluster k h = s.setCluster k (h (s.cluster k)) := rfl
@[simp] theorem modLock_eq (k : Nat) (h : Lock → Lock) : s.modLock k h = s.setLock k (h (s.lock k)) := rfl
@[simp] theorem modArb_eq (k : Nat) (h : Arb → Arb) : s.modArb k h = s.setArb k (h (s.arb k)) := rfl
@[simp] theorem modWin_eq (k : Nat) (h : Win → Win) : s.modWin k h = s.setWin k (h (s.win k)) := rfl
@[simp] theorem bump_eq (k : Nat) : s.bump k = s.bumpN k 1 := rfl
@[simp] theorem bumpTw_eq (t i w : Nat) : s.bumpTw t i w = s.bumpTwN t i w 1 := rfl
@[simp] theorem bumpN_rank (k n : Nat) : (s.bumpN k n).rank = s.rank := rfl
@[simp] theorem bumpN_slowEdge (k n : Nat) : (s.bumpN k n).slowEdge = s.slowEdge := rfl
@[simp] theorem bumpN_tbl (k n : Nat) : (s.bumpN k n).tbl = s.tbl := rfl
@[simp] theorem bumpN_shadowTbl (k n : Nat) : (s.bumpN k n).shadowTbl = s.shadowTbl := rfl
@[simp] theorem bumpN_slow (k n : Nat) : (s.bumpN k n).slow = s.slow := rfl
@[simp] theorem bumpN_resp (k n : Nat) : (s.bumpN k n).resp = s.resp := rfl
@[simp] theorem bumpN_answered (k n : Nat) : (s.bumpN k n).answered = s.answered := rfl
@[simp] theorem bumpN_regTag (k n : Nat) : (s.bumpN k n).regTag = s.regTag := rfl
@[simp] theorem bumpN_wins (k n : Nat) : (s.bumpN k n).wins = s.wins := rfl
@[simp] theorem bumpN_ticks (k n : Nat) : (s.bumpN k n).ticks = s.ticks := rfl
@[simp] theorem bumpN_tickAt (k n : Nat) : (s.bumpN k n).tickAt = s.tickAt := rfl
@[simp] theorem bumpN_ins (k n : Nat) : (s.bumpN k n).ins = s.ins := rfl
@[simp] theorem bumpN_fifo (k n : Nat) : (s.bumpN k n).fifo = s.fifo := rfl
@[simp] theorem bumpN_fab (k n : Nat) : (s.bumpN k n).fab = s.fab := rfl
@[simp] theorem bumpN_rq (k n : Nat) : (s.bumpN k n).rq = s.rq := rfl
@[simp] theorem bumpN_lastMsg (k n : Nat) : (s.bumpN k n).lastMsg = s.lastMsg := rfl
@[simp] theorem bumpN_srcs (k n : Nat) : (s.bumpN k n).srcs = s.srcs := rfl
@[simp] theorem bumpN_dsts (k n : Nat) : (s.bumpN k n).dsts = s.dsts := rfl
@[simp] theorem bumpN_banks (k n : Nat) : (s.bumpN k n).banks = s.banks := rfl
@[simp] theorem bumpN_usage (k n : Nat) : (s.bumpN k n).usage = s.usage := rfl
@[simp] theorem bumpN_decayAt (k n : Nat) : (s.bumpN k n).decayAt = s.decayAt := rfl
@[simp] theorem bumpN_bases (k n : Nat) : (s.bumpN k n).bases = s.bases := rfl
@[simp] theorem bumpN_ctxs (k n : Nat) : (s.bumpN k n).ctxs = s.ctxs := rfl
@[simp] theorem bumpN_occs (k n : Nat) : (s.bumpN k n).occs = s.occs := rfl
@[simp] theorem bumpN_occNext (k n : Nat) : (s.bumpN k n).occNext = s.occNext := rfl
@[simp] theorem bumpN_engs (k n : Nat) : (s.bumpN k n).engs = s.engs := rfl
@[simp] theorem bumpN_pools (k n : Nat) : (s.bumpN k n).pools = s.pools := rfl
@[simp] theorem bumpN_clusters (k n : Nat) : (s.bumpN k n).clusters = s.clusters := rfl
@[simp] theorem bumpN_locks (k n : Nat) : (s.bumpN k n).locks = s.locks := rfl
@[simp] theorem bumpN_seqs (k n : Nat) : (s.bumpN k n).seqs = s.seqs := rfl
@[simp] theorem bumpN_seqNext (k n : Nat) : (s.bumpN k n).seqNext = s.seqNext := rfl
@[simp] theorem bumpN_arbs (k n : Nat) : (s.bumpN k n).arbs = s.arbs := rfl
@[simp] theorem bumpN_safeQ (k n : Nat) : (s.bumpN k n).safeQ = s.safeQ := rfl
@[simp] theorem bumpN_safeAt (k n : Nat) : (s.bumpN k n).safeAt = s.safeAt := rfl
@[simp] theorem bumpN_outAt (k n : Nat) : (s.bumpN k n).outAt = s.outAt := rfl
@[simp] theorem bumpN_stallRun (k n : Nat) : (s.bumpN k n).stallRun = s.stallRun := rfl
@[simp] theorem bumpN_outLast (k n : Nat) : (s.bumpN k n).outLast = s.outLast := rfl
@[simp] theorem bumpN_flush (k n : Nat) : (s.bumpN k n).flush = s.flush := rfl
@[simp] theorem bumpN_mapStat (k n : Nat) : (s.bumpN k n).mapStat = s.mapStat := rfl
@[simp] theorem bumpN_mapHeld (k n : Nat) : (s.bumpN k n).mapHeld = s.mapHeld := rfl
@[simp] theorem bumpN_ldr (k n : Nat) : (s.bumpN k n).ldr = s.ldr := rfl
@[simp] theorem bumpN_pwr (k n : Nat) : (s.bumpN k n).pwr = s.pwr := rfl
@[simp] theorem bumpN_mir (k n : Nat) : (s.bumpN k n).mir = s.mir := rfl
@[simp] theorem bumpN_snt (k n : Nat) : (s.bumpN k n).snt = s.snt := rfl
@[simp] theorem bumpN_log (k n : Nat) : (s.bumpN k n).log = s.log := rfl
@[simp] theorem bumpN_pending (k n : Nat) : (s.bumpN k n).pending = s.pending := rfl
@[simp] theorem bumpN_free (k n : Nat) : (s.bumpN k n).free = s.free := rfl
@[simp] theorem bumpN_regs (k n : Nat) : (s.bumpN k n).regs = (s.setReg k (s.reg k + wd n)).regs := rfl
@[simp] theorem bumpN_edge (k n : Nat) : (s.bumpN k n).edge = s.edge.counted k n := rfl
@[simp] theorem bumpTwN_rank (t i w n : Nat) : (s.bumpTwN t i w n).rank = s.rank := rfl
@[simp] theorem bumpTwN_slowEdge (t i w n : Nat) : (s.bumpTwN t i w n).slowEdge = s.slowEdge := rfl
@[simp] theorem bumpTwN_regs (t i w n : Nat) : (s.bumpTwN t i w n).regs = s.regs := rfl
@[simp] theorem bumpTwN_shadowTbl (t i w n : Nat) : (s.bumpTwN t i w n).shadowTbl = s.shadowTbl := rfl
@[simp] theorem bumpTwN_slow (t i w n : Nat) : (s.bumpTwN t i w n).slow = s.slow := rfl
@[simp] theorem bumpTwN_resp (t i w n : Nat) : (s.bumpTwN t i w n).resp = s.resp := rfl
@[simp] theorem bumpTwN_answered (t i w n : Nat) : (s.bumpTwN t i w n).answered = s.answered := rfl
@[simp] theorem bumpTwN_regTag (t i w n : Nat) : (s.bumpTwN t i w n).regTag = s.regTag := rfl
@[simp] theorem bumpTwN_wins (t i w n : Nat) : (s.bumpTwN t i w n).wins = s.wins := rfl
@[simp] theorem bumpTwN_ticks (t i w n : Nat) : (s.bumpTwN t i w n).ticks = s.ticks := rfl
@[simp] theorem bumpTwN_tickAt (t i w n : Nat) : (s.bumpTwN t i w n).tickAt = s.tickAt := rfl
@[simp] theorem bumpTwN_ins (t i w n : Nat) : (s.bumpTwN t i w n).ins = s.ins := rfl
@[simp] theorem bumpTwN_fifo (t i w n : Nat) : (s.bumpTwN t i w n).fifo = s.fifo := rfl
@[simp] theorem bumpTwN_fab (t i w n : Nat) : (s.bumpTwN t i w n).fab = s.fab := rfl
@[simp] theorem bumpTwN_rq (t i w n : Nat) : (s.bumpTwN t i w n).rq = s.rq := rfl
@[simp] theorem bumpTwN_lastMsg (t i w n : Nat) : (s.bumpTwN t i w n).lastMsg = s.lastMsg := rfl
@[simp] theorem bumpTwN_srcs (t i w n : Nat) : (s.bumpTwN t i w n).srcs = s.srcs := rfl
@[simp] theorem bumpTwN_dsts (t i w n : Nat) : (s.bumpTwN t i w n).dsts = s.dsts := rfl
@[simp] theorem bumpTwN_banks (t i w n : Nat) : (s.bumpTwN t i w n).banks = s.banks := rfl
@[simp] theorem bumpTwN_usage (t i w n : Nat) : (s.bumpTwN t i w n).usage = s.usage := rfl
@[simp] theorem bumpTwN_decayAt (t i w n : Nat) : (s.bumpTwN t i w n).decayAt = s.decayAt := rfl
@[simp] theorem bumpTwN_bases (t i w n : Nat) : (s.bumpTwN t i w n).bases = s.bases := rfl
@[simp] theorem bumpTwN_ctxs (t i w n : Nat) : (s.bumpTwN t i w n).ctxs = s.ctxs := rfl
@[simp] theorem bumpTwN_occs (t i w n : Nat) : (s.bumpTwN t i w n).occs = s.occs := rfl
@[simp] theorem bumpTwN_occNext (t i w n : Nat) : (s.bumpTwN t i w n).occNext = s.occNext := rfl
@[simp] theorem bumpTwN_engs (t i w n : Nat) : (s.bumpTwN t i w n).engs = s.engs := rfl
@[simp] theorem bumpTwN_pools (t i w n : Nat) : (s.bumpTwN t i w n).pools = s.pools := rfl
@[simp] theorem bumpTwN_clusters (t i w n : Nat) : (s.bumpTwN t i w n).clusters = s.clusters := rfl
@[simp] theorem bumpTwN_locks (t i w n : Nat) : (s.bumpTwN t i w n).locks = s.locks := rfl
@[simp] theorem bumpTwN_seqs (t i w n : Nat) : (s.bumpTwN t i w n).seqs = s.seqs := rfl
@[simp] theorem bumpTwN_seqNext (t i w n : Nat) : (s.bumpTwN t i w n).seqNext = s.seqNext := rfl
@[simp] theorem bumpTwN_arbs (t i w n : Nat) : (s.bumpTwN t i w n).arbs = s.arbs := rfl
@[simp] theorem bumpTwN_safeQ (t i w n : Nat) : (s.bumpTwN t i w n).safeQ = s.safeQ := rfl
@[simp] theorem bumpTwN_safeAt (t i w n : Nat) : (s.bumpTwN t i w n).safeAt = s.safeAt := rfl
@[simp] theorem bumpTwN_outAt (t i w n : Nat) : (s.bumpTwN t i w n).outAt = s.outAt := rfl
@[simp] theorem bumpTwN_stallRun (t i w n : Nat) : (s.bumpTwN t i w n).stallRun = s.stallRun := rfl
@[simp] theorem bumpTwN_outLast (t i w n : Nat) : (s.bumpTwN t i w n).outLast = s.outLast := rfl
@[simp] theorem bumpTwN_flush (t i w n : Nat) : (s.bumpTwN t i w n).flush = s.flush := rfl
@[simp] theorem bumpTwN_mapStat (t i w n : Nat) : (s.bumpTwN t i w n).mapStat = s.mapStat := rfl
@[simp] theorem bumpTwN_mapHeld (t i w n : Nat) : (s.bumpTwN t i w n).mapHeld = s.mapHeld := rfl
@[simp] theorem bumpTwN_ldr (t i w n : Nat) : (s.bumpTwN t i w n).ldr = s.ldr := rfl
@[simp] theorem bumpTwN_pwr (t i w n : Nat) : (s.bumpTwN t i w n).pwr = s.pwr := rfl
@[simp] theorem bumpTwN_mir (t i w n : Nat) : (s.bumpTwN t i w n).mir = s.mir := rfl
@[simp] theorem bumpTwN_snt (t i w n : Nat) : (s.bumpTwN t i w n).snt = s.snt := rfl
@[simp] theorem bumpTwN_log (t i w n : Nat) : (s.bumpTwN t i w n).log = s.log := rfl
@[simp] theorem bumpTwN_pending (t i w n : Nat) : (s.bumpTwN t i w n).pending = s.pending := rfl
@[simp] theorem bumpTwN_free (t i w n : Nat) : (s.bumpTwN t i w n).free = s.free := rfl
@[simp] theorem bumpTwN_tbl (t i w n : Nat) : (s.bumpTwN t i w n).tbl = (s.setTw t i w (s.tw t i w + wd n)).tbl := rfl

/-! ## Reads after writes -/

@[simp] theorem inp_setIn_same (k : Nat) (v : InSt) : (s.setIn k v).inp k = v := mGet_set_same _ _ _ _
@[simp] theorem inp_setIn_other (k j : Nat) (v : InSt) (h : j ≠ k) : (s.setIn k v).inp j = s.inp j :=
  mGet_set_other _ _ _ h
@[simp] theorem src_setSrc_same (k : Nat) (v : Src) : (s.setSrc k v).src k = v := mGet_set_same _ _ _ _
@[simp] theorem src_setSrc_other (k j : Nat) (v : Src) (h : j ≠ k) : (s.setSrc k v).src j = s.src j :=
  mGet_set_other _ _ _ h
@[simp] theorem dst_setDst_same (k : Nat) (v : Dst) : (s.setDst k v).dst k = v := mGet_set_same _ _ _ _
@[simp] theorem dst_setDst_other (k j : Nat) (v : Dst) (h : j ≠ k) : (s.setDst k v).dst j = s.dst j :=
  mGet_set_other _ _ _ h
@[simp] theorem bank_setBank_same (k : Nat) (v : Bank) : (s.setBank k v).bank k = v := mGet_set_same _ _ _ _
@[simp] theorem bank_setBank_other (k j : Nat) (v : Bank) (h : j ≠ k) : (s.setBank k v).bank j = s.bank j :=
  mGet_set_other _ _ _ h
@[simp] theorem base_setBase_same (k : Nat) (v : Base) : (s.setBase k v).base k = v := mGet_set_same _ _ _ _
@[simp] theorem base_setBase_other (k j : Nat) (v : Base) (h : j ≠ k) : (s.setBase k v).base j = s.base j :=
  mGet_set_other _ _ _ h
@[simp] theorem ctx_setCtx_same (k : Nat) (v : Ctx) : (s.setCtx k v).ctx k = v := mGet_set_same _ _ _ _
@[simp] theorem ctx_setCtx_other (k j : Nat) (v : Ctx) (h : j ≠ k) : (s.setCtx k v).ctx j = s.ctx j :=
  mGet_set_other _ _ _ h
@[simp] theorem eng_setEng_same (k : Nat) (v : Eng) : (s.setEng k v).eng k = v := mGet_set_same _ _ _ _
@[simp] theorem eng_setEng_other (k j : Nat) (v : Eng) (h : j ≠ k) : (s.setEng k v).eng j = s.eng j :=
  mGet_set_other _ _ _ h
@[simp] theorem cluster_setCluster_same (k : Nat) (v : Cluster) : (s.setCluster k v).cluster k = v := mGet_set_same _ _ _ _
@[simp] theorem cluster_setCluster_other (k j : Nat) (v : Cluster) (h : j ≠ k) : (s.setCluster k v).cluster j = s.cluster j :=
  mGet_set_other _ _ _ h
@[simp] theorem lock_setLock_same (k : Nat) (v : Lock) : (s.setLock k v).lock k = v := mGet_set_same _ _ _ _
@[simp] theorem lock_setLock_other (k j : Nat) (v : Lock) (h : j ≠ k) : (s.setLock k v).lock j = s.lock j :=
  mGet_set_other _ _ _ h
@[simp] theorem arb_setArb_same (k : Nat) (v : Arb) : (s.setArb k v).arb k = v := mGet_set_same _ _ _ _
@[simp] theorem arb_setArb_other (k j : Nat) (v : Arb) (h : j ≠ k) : (s.setArb k v).arb j = s.arb j :=
  mGet_set_other _ _ _ h
@[simp] theorem win_setWin_same (k : Nat) (v : Win) : (s.setWin k v).win k = v := mGet_set_same _ _ _ _
@[simp] theorem win_setWin_other (k j : Nat) (v : Win) (h : j ≠ k) : (s.setWin k v).win j = s.win j :=
  mGet_set_other _ _ _ h
@[simp] theorem reg_setReg_same (k : Nat) (v : Word) : (s.setReg k v).reg k = v := mGet_set_same _ _ _ _
@[simp] theorem reg_setReg_other (k j : Nat) (v : Word) (h : j ≠ k) : (s.setReg k v).reg j = s.reg j :=
  mGet_set_other _ _ _ h
@[simp] theorem tw_setTw_same (t i w : Nat) (v : Word) : (s.setTw t i w v).tw t i w = v := mGet_set_same _ _ _ _
@[simp] theorem tw_setTw_other (t i w t' i' w' : Nat) (v : Word) (h : tKey t' i' w' ≠ tKey t i w) :
    (s.setTw t i w v).tw t' i' w' = s.tw t' i' w' := mGet_set_other _ _ _ h

@[simp] theorem src_setIn (k : Nat) (v : InSt) (j : Nat) : (s.setIn k v).src j = s.src j := rfl
@[simp] theorem dst_setIn (k : Nat) (v : InSt) (j : Nat) : (s.setIn k v).dst j = s.dst j := rfl
@[simp] theorem bank_setIn (k : Nat) (v : InSt) (j : Nat) : (s.setIn k v).bank j = s.bank j := rfl
@[simp] theorem base_setIn (k : Nat) (v : InSt) (j : Nat) : (s.setIn k v).base j = s.base j := rfl
@[simp] theorem ctx_setIn (k : Nat) (v : InSt) (j : Nat) : (s.setIn k v).ctx j = s.ctx j := rfl
@[simp] theorem eng_setIn (k : Nat) (v : InSt) (j : Nat) : (s.setIn k v).eng j = s.eng j := rfl
@[simp] theorem cluster_setIn (k : Nat) (v : InSt) (j : Nat) : (s.setIn k v).cluster j = s.cluster j := rfl
@[simp] theorem lock_setIn (k : Nat) (v : InSt) (j : Nat) : (s.setIn k v).lock j = s.lock j := rfl
@[simp] theorem arb_setIn (k : Nat) (v : InSt) (j : Nat) : (s.setIn k v).arb j = s.arb j := rfl
@[simp] theorem win_setIn (k : Nat) (v : InSt) (j : Nat) : (s.setIn k v).win j = s.win j := rfl
@[simp] theorem reg_setIn (k : Nat) (v : InSt) (j : Nat) : (s.setIn k v).reg j = s.reg j := rfl
@[simp] theorem tw_setIn (k : Nat) (v : InSt) (t' i' w' : Nat) : (s.setIn k v).tw t' i' w' = s.tw t' i' w' := rfl
@[simp] theorem inp_setSrc (k : Nat) (v : Src) (j : Nat) : (s.setSrc k v).inp j = s.inp j := rfl
@[simp] theorem dst_setSrc (k : Nat) (v : Src) (j : Nat) : (s.setSrc k v).dst j = s.dst j := rfl
@[simp] theorem bank_setSrc (k : Nat) (v : Src) (j : Nat) : (s.setSrc k v).bank j = s.bank j := rfl
@[simp] theorem base_setSrc (k : Nat) (v : Src) (j : Nat) : (s.setSrc k v).base j = s.base j := rfl
@[simp] theorem ctx_setSrc (k : Nat) (v : Src) (j : Nat) : (s.setSrc k v).ctx j = s.ctx j := rfl
@[simp] theorem eng_setSrc (k : Nat) (v : Src) (j : Nat) : (s.setSrc k v).eng j = s.eng j := rfl
@[simp] theorem cluster_setSrc (k : Nat) (v : Src) (j : Nat) : (s.setSrc k v).cluster j = s.cluster j := rfl
@[simp] theorem lock_setSrc (k : Nat) (v : Src) (j : Nat) : (s.setSrc k v).lock j = s.lock j := rfl
@[simp] theorem arb_setSrc (k : Nat) (v : Src) (j : Nat) : (s.setSrc k v).arb j = s.arb j := rfl
@[simp] theorem win_setSrc (k : Nat) (v : Src) (j : Nat) : (s.setSrc k v).win j = s.win j := rfl
@[simp] theorem reg_setSrc (k : Nat) (v : Src) (j : Nat) : (s.setSrc k v).reg j = s.reg j := rfl
@[simp] theorem tw_setSrc (k : Nat) (v : Src) (t' i' w' : Nat) : (s.setSrc k v).tw t' i' w' = s.tw t' i' w' := rfl
@[simp] theorem inp_setDst (k : Nat) (v : Dst) (j : Nat) : (s.setDst k v).inp j = s.inp j := rfl
@[simp] theorem src_setDst (k : Nat) (v : Dst) (j : Nat) : (s.setDst k v).src j = s.src j := rfl
@[simp] theorem bank_setDst (k : Nat) (v : Dst) (j : Nat) : (s.setDst k v).bank j = s.bank j := rfl
@[simp] theorem base_setDst (k : Nat) (v : Dst) (j : Nat) : (s.setDst k v).base j = s.base j := rfl
@[simp] theorem ctx_setDst (k : Nat) (v : Dst) (j : Nat) : (s.setDst k v).ctx j = s.ctx j := rfl
@[simp] theorem eng_setDst (k : Nat) (v : Dst) (j : Nat) : (s.setDst k v).eng j = s.eng j := rfl
@[simp] theorem cluster_setDst (k : Nat) (v : Dst) (j : Nat) : (s.setDst k v).cluster j = s.cluster j := rfl
@[simp] theorem lock_setDst (k : Nat) (v : Dst) (j : Nat) : (s.setDst k v).lock j = s.lock j := rfl
@[simp] theorem arb_setDst (k : Nat) (v : Dst) (j : Nat) : (s.setDst k v).arb j = s.arb j := rfl
@[simp] theorem win_setDst (k : Nat) (v : Dst) (j : Nat) : (s.setDst k v).win j = s.win j := rfl
@[simp] theorem reg_setDst (k : Nat) (v : Dst) (j : Nat) : (s.setDst k v).reg j = s.reg j := rfl
@[simp] theorem tw_setDst (k : Nat) (v : Dst) (t' i' w' : Nat) : (s.setDst k v).tw t' i' w' = s.tw t' i' w' := rfl
@[simp] theorem inp_setBank (k : Nat) (v : Bank) (j : Nat) : (s.setBank k v).inp j = s.inp j := rfl
@[simp] theorem src_setBank (k : Nat) (v : Bank) (j : Nat) : (s.setBank k v).src j = s.src j := rfl
@[simp] theorem dst_setBank (k : Nat) (v : Bank) (j : Nat) : (s.setBank k v).dst j = s.dst j := rfl
@[simp] theorem base_setBank (k : Nat) (v : Bank) (j : Nat) : (s.setBank k v).base j = s.base j := rfl
@[simp] theorem ctx_setBank (k : Nat) (v : Bank) (j : Nat) : (s.setBank k v).ctx j = s.ctx j := rfl
@[simp] theorem eng_setBank (k : Nat) (v : Bank) (j : Nat) : (s.setBank k v).eng j = s.eng j := rfl
@[simp] theorem cluster_setBank (k : Nat) (v : Bank) (j : Nat) : (s.setBank k v).cluster j = s.cluster j := rfl
@[simp] theorem lock_setBank (k : Nat) (v : Bank) (j : Nat) : (s.setBank k v).lock j = s.lock j := rfl
@[simp] theorem arb_setBank (k : Nat) (v : Bank) (j : Nat) : (s.setBank k v).arb j = s.arb j := rfl
@[simp] theorem win_setBank (k : Nat) (v : Bank) (j : Nat) : (s.setBank k v).win j = s.win j := rfl
@[simp] theorem reg_setBank (k : Nat) (v : Bank) (j : Nat) : (s.setBank k v).reg j = s.reg j := rfl
@[simp] theorem tw_setBank (k : Nat) (v : Bank) (t' i' w' : Nat) : (s.setBank k v).tw t' i' w' = s.tw t' i' w' := rfl
@[simp] theorem inp_setBase (k : Nat) (v : Base) (j : Nat) : (s.setBase k v).inp j = s.inp j := rfl
@[simp] theorem src_setBase (k : Nat) (v : Base) (j : Nat) : (s.setBase k v).src j = s.src j := rfl
@[simp] theorem dst_setBase (k : Nat) (v : Base) (j : Nat) : (s.setBase k v).dst j = s.dst j := rfl
@[simp] theorem bank_setBase (k : Nat) (v : Base) (j : Nat) : (s.setBase k v).bank j = s.bank j := rfl
@[simp] theorem ctx_setBase (k : Nat) (v : Base) (j : Nat) : (s.setBase k v).ctx j = s.ctx j := rfl
@[simp] theorem eng_setBase (k : Nat) (v : Base) (j : Nat) : (s.setBase k v).eng j = s.eng j := rfl
@[simp] theorem cluster_setBase (k : Nat) (v : Base) (j : Nat) : (s.setBase k v).cluster j = s.cluster j := rfl
@[simp] theorem lock_setBase (k : Nat) (v : Base) (j : Nat) : (s.setBase k v).lock j = s.lock j := rfl
@[simp] theorem arb_setBase (k : Nat) (v : Base) (j : Nat) : (s.setBase k v).arb j = s.arb j := rfl
@[simp] theorem win_setBase (k : Nat) (v : Base) (j : Nat) : (s.setBase k v).win j = s.win j := rfl
@[simp] theorem reg_setBase (k : Nat) (v : Base) (j : Nat) : (s.setBase k v).reg j = s.reg j := rfl
@[simp] theorem tw_setBase (k : Nat) (v : Base) (t' i' w' : Nat) : (s.setBase k v).tw t' i' w' = s.tw t' i' w' := rfl
@[simp] theorem inp_setCtx (k : Nat) (v : Ctx) (j : Nat) : (s.setCtx k v).inp j = s.inp j := rfl
@[simp] theorem src_setCtx (k : Nat) (v : Ctx) (j : Nat) : (s.setCtx k v).src j = s.src j := rfl
@[simp] theorem dst_setCtx (k : Nat) (v : Ctx) (j : Nat) : (s.setCtx k v).dst j = s.dst j := rfl
@[simp] theorem bank_setCtx (k : Nat) (v : Ctx) (j : Nat) : (s.setCtx k v).bank j = s.bank j := rfl
@[simp] theorem base_setCtx (k : Nat) (v : Ctx) (j : Nat) : (s.setCtx k v).base j = s.base j := rfl
@[simp] theorem eng_setCtx (k : Nat) (v : Ctx) (j : Nat) : (s.setCtx k v).eng j = s.eng j := rfl
@[simp] theorem cluster_setCtx (k : Nat) (v : Ctx) (j : Nat) : (s.setCtx k v).cluster j = s.cluster j := rfl
@[simp] theorem lock_setCtx (k : Nat) (v : Ctx) (j : Nat) : (s.setCtx k v).lock j = s.lock j := rfl
@[simp] theorem arb_setCtx (k : Nat) (v : Ctx) (j : Nat) : (s.setCtx k v).arb j = s.arb j := rfl
@[simp] theorem win_setCtx (k : Nat) (v : Ctx) (j : Nat) : (s.setCtx k v).win j = s.win j := rfl
@[simp] theorem reg_setCtx (k : Nat) (v : Ctx) (j : Nat) : (s.setCtx k v).reg j = s.reg j := rfl
@[simp] theorem tw_setCtx (k : Nat) (v : Ctx) (t' i' w' : Nat) : (s.setCtx k v).tw t' i' w' = s.tw t' i' w' := rfl
@[simp] theorem inp_setEng (k : Nat) (v : Eng) (j : Nat) : (s.setEng k v).inp j = s.inp j := rfl
@[simp] theorem src_setEng (k : Nat) (v : Eng) (j : Nat) : (s.setEng k v).src j = s.src j := rfl
@[simp] theorem dst_setEng (k : Nat) (v : Eng) (j : Nat) : (s.setEng k v).dst j = s.dst j := rfl
@[simp] theorem bank_setEng (k : Nat) (v : Eng) (j : Nat) : (s.setEng k v).bank j = s.bank j := rfl
@[simp] theorem base_setEng (k : Nat) (v : Eng) (j : Nat) : (s.setEng k v).base j = s.base j := rfl
@[simp] theorem ctx_setEng (k : Nat) (v : Eng) (j : Nat) : (s.setEng k v).ctx j = s.ctx j := rfl
@[simp] theorem cluster_setEng (k : Nat) (v : Eng) (j : Nat) : (s.setEng k v).cluster j = s.cluster j := rfl
@[simp] theorem lock_setEng (k : Nat) (v : Eng) (j : Nat) : (s.setEng k v).lock j = s.lock j := rfl
@[simp] theorem arb_setEng (k : Nat) (v : Eng) (j : Nat) : (s.setEng k v).arb j = s.arb j := rfl
@[simp] theorem win_setEng (k : Nat) (v : Eng) (j : Nat) : (s.setEng k v).win j = s.win j := rfl
@[simp] theorem reg_setEng (k : Nat) (v : Eng) (j : Nat) : (s.setEng k v).reg j = s.reg j := rfl
@[simp] theorem tw_setEng (k : Nat) (v : Eng) (t' i' w' : Nat) : (s.setEng k v).tw t' i' w' = s.tw t' i' w' := rfl
@[simp] theorem inp_setCluster (k : Nat) (v : Cluster) (j : Nat) : (s.setCluster k v).inp j = s.inp j := rfl
@[simp] theorem src_setCluster (k : Nat) (v : Cluster) (j : Nat) : (s.setCluster k v).src j = s.src j := rfl
@[simp] theorem dst_setCluster (k : Nat) (v : Cluster) (j : Nat) : (s.setCluster k v).dst j = s.dst j := rfl
@[simp] theorem bank_setCluster (k : Nat) (v : Cluster) (j : Nat) : (s.setCluster k v).bank j = s.bank j := rfl
@[simp] theorem base_setCluster (k : Nat) (v : Cluster) (j : Nat) : (s.setCluster k v).base j = s.base j := rfl
@[simp] theorem ctx_setCluster (k : Nat) (v : Cluster) (j : Nat) : (s.setCluster k v).ctx j = s.ctx j := rfl
@[simp] theorem eng_setCluster (k : Nat) (v : Cluster) (j : Nat) : (s.setCluster k v).eng j = s.eng j := rfl
@[simp] theorem lock_setCluster (k : Nat) (v : Cluster) (j : Nat) : (s.setCluster k v).lock j = s.lock j := rfl
@[simp] theorem arb_setCluster (k : Nat) (v : Cluster) (j : Nat) : (s.setCluster k v).arb j = s.arb j := rfl
@[simp] theorem win_setCluster (k : Nat) (v : Cluster) (j : Nat) : (s.setCluster k v).win j = s.win j := rfl
@[simp] theorem reg_setCluster (k : Nat) (v : Cluster) (j : Nat) : (s.setCluster k v).reg j = s.reg j := rfl
@[simp] theorem tw_setCluster (k : Nat) (v : Cluster) (t' i' w' : Nat) : (s.setCluster k v).tw t' i' w' = s.tw t' i' w' := rfl
@[simp] theorem inp_setLock (k : Nat) (v : Lock) (j : Nat) : (s.setLock k v).inp j = s.inp j := rfl
@[simp] theorem src_setLock (k : Nat) (v : Lock) (j : Nat) : (s.setLock k v).src j = s.src j := rfl
@[simp] theorem dst_setLock (k : Nat) (v : Lock) (j : Nat) : (s.setLock k v).dst j = s.dst j := rfl
@[simp] theorem bank_setLock (k : Nat) (v : Lock) (j : Nat) : (s.setLock k v).bank j = s.bank j := rfl
@[simp] theorem base_setLock (k : Nat) (v : Lock) (j : Nat) : (s.setLock k v).base j = s.base j := rfl
@[simp] theorem ctx_setLock (k : Nat) (v : Lock) (j : Nat) : (s.setLock k v).ctx j = s.ctx j := rfl
@[simp] theorem eng_setLock (k : Nat) (v : Lock) (j : Nat) : (s.setLock k v).eng j = s.eng j := rfl
@[simp] theorem cluster_setLock (k : Nat) (v : Lock) (j : Nat) : (s.setLock k v).cluster j = s.cluster j := rfl
@[simp] theorem arb_setLock (k : Nat) (v : Lock) (j : Nat) : (s.setLock k v).arb j = s.arb j := rfl
@[simp] theorem win_setLock (k : Nat) (v : Lock) (j : Nat) : (s.setLock k v).win j = s.win j := rfl
@[simp] theorem reg_setLock (k : Nat) (v : Lock) (j : Nat) : (s.setLock k v).reg j = s.reg j := rfl
@[simp] theorem tw_setLock (k : Nat) (v : Lock) (t' i' w' : Nat) : (s.setLock k v).tw t' i' w' = s.tw t' i' w' := rfl
@[simp] theorem inp_setArb (k : Nat) (v : Arb) (j : Nat) : (s.setArb k v).inp j = s.inp j := rfl
@[simp] theorem src_setArb (k : Nat) (v : Arb) (j : Nat) : (s.setArb k v).src j = s.src j := rfl
@[simp] theorem dst_setArb (k : Nat) (v : Arb) (j : Nat) : (s.setArb k v).dst j = s.dst j := rfl
@[simp] theorem bank_setArb (k : Nat) (v : Arb) (j : Nat) : (s.setArb k v).bank j = s.bank j := rfl
@[simp] theorem base_setArb (k : Nat) (v : Arb) (j : Nat) : (s.setArb k v).base j = s.base j := rfl
@[simp] theorem ctx_setArb (k : Nat) (v : Arb) (j : Nat) : (s.setArb k v).ctx j = s.ctx j := rfl
@[simp] theorem eng_setArb (k : Nat) (v : Arb) (j : Nat) : (s.setArb k v).eng j = s.eng j := rfl
@[simp] theorem cluster_setArb (k : Nat) (v : Arb) (j : Nat) : (s.setArb k v).cluster j = s.cluster j := rfl
@[simp] theorem lock_setArb (k : Nat) (v : Arb) (j : Nat) : (s.setArb k v).lock j = s.lock j := rfl
@[simp] theorem win_setArb (k : Nat) (v : Arb) (j : Nat) : (s.setArb k v).win j = s.win j := rfl
@[simp] theorem reg_setArb (k : Nat) (v : Arb) (j : Nat) : (s.setArb k v).reg j = s.reg j := rfl
@[simp] theorem tw_setArb (k : Nat) (v : Arb) (t' i' w' : Nat) : (s.setArb k v).tw t' i' w' = s.tw t' i' w' := rfl
@[simp] theorem inp_setWin (k : Nat) (v : Win) (j : Nat) : (s.setWin k v).inp j = s.inp j := rfl
@[simp] theorem src_setWin (k : Nat) (v : Win) (j : Nat) : (s.setWin k v).src j = s.src j := rfl
@[simp] theorem dst_setWin (k : Nat) (v : Win) (j : Nat) : (s.setWin k v).dst j = s.dst j := rfl
@[simp] theorem bank_setWin (k : Nat) (v : Win) (j : Nat) : (s.setWin k v).bank j = s.bank j := rfl
@[simp] theorem base_setWin (k : Nat) (v : Win) (j : Nat) : (s.setWin k v).base j = s.base j := rfl
@[simp] theorem ctx_setWin (k : Nat) (v : Win) (j : Nat) : (s.setWin k v).ctx j = s.ctx j := rfl
@[simp] theorem eng_setWin (k : Nat) (v : Win) (j : Nat) : (s.setWin k v).eng j = s.eng j := rfl
@[simp] theorem cluster_setWin (k : Nat) (v : Win) (j : Nat) : (s.setWin k v).cluster j = s.cluster j := rfl
@[simp] theorem lock_setWin (k : Nat) (v : Win) (j : Nat) : (s.setWin k v).lock j = s.lock j := rfl
@[simp] theorem arb_setWin (k : Nat) (v : Win) (j : Nat) : (s.setWin k v).arb j = s.arb j := rfl
@[simp] theorem reg_setWin (k : Nat) (v : Win) (j : Nat) : (s.setWin k v).reg j = s.reg j := rfl
@[simp] theorem tw_setWin (k : Nat) (v : Win) (t' i' w' : Nat) : (s.setWin k v).tw t' i' w' = s.tw t' i' w' := rfl
@[simp] theorem inp_setReg (k : Nat) (v : Word) (j : Nat) : (s.setReg k v).inp j = s.inp j := rfl
@[simp] theorem src_setReg (k : Nat) (v : Word) (j : Nat) : (s.setReg k v).src j = s.src j := rfl
@[simp] theorem dst_setReg (k : Nat) (v : Word) (j : Nat) : (s.setReg k v).dst j = s.dst j := rfl
@[simp] theorem bank_setReg (k : Nat) (v : Word) (j : Nat) : (s.setReg k v).bank j = s.bank j := rfl
@[simp] theorem base_setReg (k : Nat) (v : Word) (j : Nat) : (s.setReg k v).base j = s.base j := rfl
@[simp] theorem ctx_setReg (k : Nat) (v : Word) (j : Nat) : (s.setReg k v).ctx j = s.ctx j := rfl
@[simp] theorem eng_setReg (k : Nat) (v : Word) (j : Nat) : (s.setReg k v).eng j = s.eng j := rfl
@[simp] theorem cluster_setReg (k : Nat) (v : Word) (j : Nat) : (s.setReg k v).cluster j = s.cluster j := rfl
@[simp] theorem lock_setReg (k : Nat) (v : Word) (j : Nat) : (s.setReg k v).lock j = s.lock j := rfl
@[simp] theorem arb_setReg (k : Nat) (v : Word) (j : Nat) : (s.setReg k v).arb j = s.arb j := rfl
@[simp] theorem win_setReg (k : Nat) (v : Word) (j : Nat) : (s.setReg k v).win j = s.win j := rfl
@[simp] theorem tw_setReg (k : Nat) (v : Word) (t' i' w' : Nat) : (s.setReg k v).tw t' i' w' = s.tw t' i' w' := rfl
@[simp] theorem inp_setTw (t i w : Nat) (v : Word) (j : Nat) : (s.setTw t i w v).inp j = s.inp j := rfl
@[simp] theorem src_setTw (t i w : Nat) (v : Word) (j : Nat) : (s.setTw t i w v).src j = s.src j := rfl
@[simp] theorem dst_setTw (t i w : Nat) (v : Word) (j : Nat) : (s.setTw t i w v).dst j = s.dst j := rfl
@[simp] theorem bank_setTw (t i w : Nat) (v : Word) (j : Nat) : (s.setTw t i w v).bank j = s.bank j := rfl
@[simp] theorem base_setTw (t i w : Nat) (v : Word) (j : Nat) : (s.setTw t i w v).base j = s.base j := rfl
@[simp] theorem ctx_setTw (t i w : Nat) (v : Word) (j : Nat) : (s.setTw t i w v).ctx j = s.ctx j := rfl
@[simp] theorem eng_setTw (t i w : Nat) (v : Word) (j : Nat) : (s.setTw t i w v).eng j = s.eng j := rfl
@[simp] theorem cluster_setTw (t i w : Nat) (v : Word) (j : Nat) : (s.setTw t i w v).cluster j = s.cluster j := rfl
@[simp] theorem lock_setTw (t i w : Nat) (v : Word) (j : Nat) : (s.setTw t i w v).lock j = s.lock j := rfl
@[simp] theorem arb_setTw (t i w : Nat) (v : Word) (j : Nat) : (s.setTw t i w v).arb j = s.arb j := rfl
@[simp] theorem win_setTw (t i w : Nat) (v : Word) (j : Nat) : (s.setTw t i w v).win j = s.win j := rfl
@[simp] theorem reg_setTw (t i w : Nat) (v : Word) (j : Nat) : (s.setTw t i w v).reg j = s.reg j := rfl
@[simp] theorem reg_bumpN_same (k n : Nat) : (s.bumpN k n).reg k = s.reg k + wd n := mGet_set_same _ _ _ _
@[simp] theorem reg_bumpN_other (k n j : Nat) (h : j ≠ k) : (s.bumpN k n).reg j = s.reg j := mGet_set_other _ _ _ h
@[simp] theorem tw_bumpTwN_same (t i w n : Nat) : (s.bumpTwN t i w n).tw t i w = s.tw t i w + wd n := mGet_set_same _ _ _ _
@[simp] theorem inp_bumpN (k n : Nat) (j : Nat) : (s.bumpN k n).inp j = s.inp j := rfl
@[simp] theorem inp_bumpTwN (t i w n : Nat) (j : Nat) : (s.bumpTwN t i w n).inp j = s.inp j := rfl
@[simp] theorem src_bumpN (k n : Nat) (j : Nat) : (s.bumpN k n).src j = s.src j := rfl
@[simp] theorem src_bumpTwN (t i w n : Nat) (j : Nat) : (s.bumpTwN t i w n).src j = s.src j := rfl
@[simp] theorem dst_bumpN (k n : Nat) (j : Nat) : (s.bumpN k n).dst j = s.dst j := rfl
@[simp] theorem dst_bumpTwN (t i w n : Nat) (j : Nat) : (s.bumpTwN t i w n).dst j = s.dst j := rfl
@[simp] theorem bank_bumpN (k n : Nat) (j : Nat) : (s.bumpN k n).bank j = s.bank j := rfl
@[simp] theorem bank_bumpTwN (t i w n : Nat) (j : Nat) : (s.bumpTwN t i w n).bank j = s.bank j := rfl
@[simp] theorem base_bumpN (k n : Nat) (j : Nat) : (s.bumpN k n).base j = s.base j := rfl
@[simp] theorem base_bumpTwN (t i w n : Nat) (j : Nat) : (s.bumpTwN t i w n).base j = s.base j := rfl
@[simp] theorem ctx_bumpN (k n : Nat) (j : Nat) : (s.bumpN k n).ctx j = s.ctx j := rfl
@[simp] theorem ctx_bumpTwN (t i w n : Nat) (j : Nat) : (s.bumpTwN t i w n).ctx j = s.ctx j := rfl
@[simp] theorem eng_bumpN (k n : Nat) (j : Nat) : (s.bumpN k n).eng j = s.eng j := rfl
@[simp] theorem eng_bumpTwN (t i w n : Nat) (j : Nat) : (s.bumpTwN t i w n).eng j = s.eng j := rfl
@[simp] theorem cluster_bumpN (k n : Nat) (j : Nat) : (s.bumpN k n).cluster j = s.cluster j := rfl
@[simp] theorem cluster_bumpTwN (t i w n : Nat) (j : Nat) : (s.bumpTwN t i w n).cluster j = s.cluster j := rfl
@[simp] theorem lock_bumpN (k n : Nat) (j : Nat) : (s.bumpN k n).lock j = s.lock j := rfl
@[simp] theorem lock_bumpTwN (t i w n : Nat) (j : Nat) : (s.bumpTwN t i w n).lock j = s.lock j := rfl
@[simp] theorem arb_bumpN (k n : Nat) (j : Nat) : (s.bumpN k n).arb j = s.arb j := rfl
@[simp] theorem arb_bumpTwN (t i w n : Nat) (j : Nat) : (s.bumpTwN t i w n).arb j = s.arb j := rfl
@[simp] theorem win_bumpN (k n : Nat) (j : Nat) : (s.bumpN k n).win j = s.win j := rfl
@[simp] theorem win_bumpTwN (t i w n : Nat) (j : Nat) : (s.bumpTwN t i w n).win j = s.win j := rfl
@[simp] theorem reg_bumpTwN (t i w n : Nat) (j : Nat) : (s.bumpTwN t i w n).reg j = s.reg j := rfl
@[simp] theorem tw_bumpN (k n : Nat) (t' i' w' : Nat) : (s.bumpN k n).tw t' i' w' = s.tw t' i' w' := rfl

end Sys2Proof.Laws
end

