-- ==== Sys2Proof/Laws/Done.lean ====
section
/-! SUPPORT. What `done` adds to a command's effect: the journal, a warm reset, the queue. -/

namespace Sys2Proof.Laws

open Sys2Proof.Machine

/-- `u` is `t` with another journal, recorder and the two counters the journal may advance, noted at the edge. -/
def JournalOnly (t u : State) : Prop :=
  u = { t with mir := u.mir, regs := u.regs, log := u.log, edge := u.edge } ∧ ∀ k, k ≠ 0x2C30 → k ≠ 0x3420 → u.reg k = t.reg k

theorem JournalOnly.refl (t : State) : JournalOnly t t := ⟨rfl, fun _ _ _ => rfl⟩

theorem JournalOnly.trans {t u v : State} (h : JournalOnly t u) (g : JournalOnly u v) : JournalOnly t v := by
  refine ⟨?_, fun k a b => (g.2 k a b).trans (h.2 k a b)⟩
  have e := g.1
  rw [h.1] at e
  exact e

theorem journalOnly_mir (t : State) (m : Mir) : JournalOnly t { t with mir := m } := ⟨rfl, fun _ _ _ => rfl⟩
theorem journalOnly_log (t : State) (l : Recorder) : JournalOnly t { t with log := l } := ⟨rfl, fun _ _ _ => rfl⟩

theorem journalOnly_bump (t : State) (k : Nat) (hk : k = 0x2C30 ∨ k = 0x3420) : JournalOnly t (t.bump k) := by
  refine ⟨rfl, fun j a b => ?_⟩
  have : j ≠ k := by rcases hk with rfl | rfl <;> assumption
  simp [this]

theorem journalOnly_fold (t : State) (r : Rec) : JournalOnly t (t.fold r) :=
  (journalOnly_log t _).trans (journalOnly_bump _ _ (.inr rfl))

theorem journalOnly_request (t : State) (r : Rec) : JournalOnly t (t.request r) := by
  unfold State.request
  split
  · exact journalOnly_fold t r
  · dsimp only
    split
    · exact (journalOnly_log t _).trans (journalOnly_fold _ _)
    · exact journalOnly_log t _

theorem journalOnly_record (t : State) (kind object reason : Nat) (d : List Word) (tn : Option Nat) :
    JournalOnly t (t.record kind object reason d tn) := journalOnly_request t _

theorem journalOnly_put (t : State) (e : JEntry) : JournalOnly t (t.journalPut e) := by
  unfold State.journalPut
  split
  · exact .refl t
  · split
    · exact journalOnly_mir t _
    · unfold State.mirEvent
      exact (((journalOnly_bump t _ (.inl rfl)).trans (journalOnly_mir _ _)).trans (journalOnly_mir _ _)).trans
        (journalOnly_record _ _ _ _ _ _)

theorem journalOnly_forEach (l : List JEntry) : ∀ t : State, JournalOnly t (forEach l (fun e t => t.journalPut e) t) := by
  induction l with
  | nil => exact .refl
  | cons e l ih => exact fun t => (journalOnly_put t e).trans (ih _)

theorem journalOnly_journaled (s t : State) : JournalOnly t (journaled s t) := by
  unfold journaled
  split
  · exact journalOnly_forEach _ t
  · exact .refl t

theorem journaled_snt (s t : State) : (journaled s t).snt = t.snt := by
  rw [(journalOnly_journaled s t).1]

/-- When no warm reset is asserted, `done` answers the effect with what the journal adds. -/
theorem done_beside (s t : State) (h : t.snt.warmDue = false) :
    ∃ u, done s t = .next u ∧ Beside { t with pending := s.pending } u := by
  have j := journalOnly_journaled s t
  refine ⟨{ journaled s t with pending := s.pending }, ?_, ?_, ?_, ?_⟩
  · unfold done State.settleWarm
    rw [journaled_snt, h]
    rfl
  · rw [j.1]
  · exact j.2
  · intro hr
    have : journaled s t = t := by unfold journaled; rw [if_neg]; exact fun hh => hr hh.2
    rw [this]

/-- Every meaning answers a next state and leaves the queue. -/
theorem done_next (s t : State) : ∃ u, done s t = .next u ∧ u.pending = s.pending := ⟨_, rfl, rfl⟩

/-- A command whose meaning is `done s t` gives `t`. -/
theorem gives_of_done {c : Instr} {s t : State} (hc : exec c s = done s t) (h : t.snt.warmDue = false) : Gives c s t := by
  unfold Gives
  rw [hc]
  exact done_beside s t h

/-! ## What stands beside an effect leaves every keyed part of the state -/

section

variable {t u : State} (h : Beside t u)
include h

theorem beside_src (k : Nat) : u.src k = t.src k := (congrArg (·.src k) h.1).trans rfl
theorem beside_inp (k : Nat) : u.inp k = t.inp k := (congrArg (·.inp k) h.1).trans rfl
theorem beside_dst (k : Nat) : u.dst k = t.dst k := (congrArg (·.dst k) h.1).trans rfl
theorem beside_bank (k : Nat) : u.bank k = t.bank k := (congrArg (·.bank k) h.1).trans rfl
theorem beside_base (k : Nat) : u.base k = t.base k := (congrArg (·.base k) h.1).trans rfl
theorem beside_ctx (k : Nat) : u.ctx k = t.ctx k := (congrArg (·.ctx k) h.1).trans rfl
theorem beside_eng (k : Nat) : u.eng k = t.eng k := (congrArg (·.eng k) h.1).trans rfl
theorem beside_cluster (k : Nat) : u.cluster k = t.cluster k := (congrArg (·.cluster k) h.1).trans rfl
theorem beside_lock (k : Nat) : u.lock k = t.lock k := (congrArg (·.lock k) h.1).trans rfl
theorem beside_arb (k : Nat) : u.arb k = t.arb k := (congrArg (·.arb k) h.1).trans rfl
theorem beside_win (k : Nat) : u.win k = t.win k := (congrArg (·.win k) h.1).trans rfl
theorem beside_dom (k : Nat) : u.dom k = t.dom k := (congrArg (·.dom k) h.1).trans rfl
theorem beside_tw (tid idx w : Nat) : u.tw tid idx w = t.tw tid idx w := (congrArg (·.tw tid idx w) h.1).trans rfl
theorem beside_rqOf (k : Nat) : u.rqOf k = t.rqOf k := (congrArg (·.rqOf k) h.1).trans rfl
theorem beside_lseq (k : Nat) : u.lseq k = t.lseq k := (congrArg (·.lseq k) h.1).trans rfl
theorem beside_rank_eq : u.rank = t.rank := (congrArg State.rank h.1).trans rfl
theorem beside_slowEdge_eq : u.slowEdge = t.slowEdge := (congrArg State.slowEdge h.1).trans rfl
theorem beside_shadowTbl_eq : u.shadowTbl = t.shadowTbl := (congrArg State.shadowTbl h.1).trans rfl
theorem beside_resp_eq : u.resp = t.resp := (congrArg State.resp h.1).trans rfl
theorem beside_ticks_eq : u.ticks = t.ticks := (congrArg State.ticks h.1).trans rfl
theorem beside_tickAt_eq : u.tickAt = t.tickAt := (congrArg State.tickAt h.1).trans rfl
theorem beside_lastMsg_eq : u.lastMsg = t.lastMsg := (congrArg State.lastMsg h.1).trans rfl
theorem beside_usage_eq : u.usage = t.usage := (congrArg State.usage h.1).trans rfl
theorem beside_decayAt_eq : u.decayAt = t.decayAt := (congrArg State.decayAt h.1).trans rfl
theorem beside_occs_eq : u.occs = t.occs := (congrArg State.occs h.1).trans rfl
theorem beside_occNext_eq : u.occNext = t.occNext := (congrArg State.occNext h.1).trans rfl
theorem beside_pools_eq : u.pools = t.pools := (congrArg State.pools h.1).trans rfl
theorem beside_seqs_eq : u.seqs = t.seqs := (congrArg State.seqs h.1).trans rfl
theorem beside_seqNext_eq : u.seqNext = t.seqNext := (congrArg State.seqNext h.1).trans rfl
theorem beside_safeQ_eq : u.safeQ = t.safeQ := (congrArg State.safeQ h.1).trans rfl
theorem beside_outAt_eq : u.outAt = t.outAt := (congrArg State.outAt h.1).trans rfl
theorem beside_stallRun_eq : u.stallRun = t.stallRun := (congrArg State.stallRun h.1).trans rfl
theorem beside_outLast_eq : u.outLast = t.outLast := (congrArg State.outLast h.1).trans rfl
theorem beside_fifo_eq : u.fifo = t.fifo := (congrArg State.fifo h.1).trans rfl
theorem beside_fab_eq : u.fab = t.fab := (congrArg State.fab h.1).trans rfl
theorem beside_answered_eq : u.answered = t.answered := (congrArg State.answered h.1).trans rfl
theorem beside_regTag_eq : u.regTag = t.regTag := (congrArg State.regTag h.1).trans rfl
theorem beside_flush_eq : u.flush = t.flush := (congrArg State.flush h.1).trans rfl
theorem beside_mapHeld_eq : u.mapHeld = t.mapHeld := (congrArg State.mapHeld h.1).trans rfl
theorem beside_ins_eq : u.ins = t.ins := (congrArg State.ins h.1).trans rfl
theorem beside_mapStat_eq : u.mapStat = t.mapStat := (congrArg State.mapStat h.1).trans rfl
theorem beside_ldr_eq : u.ldr = t.ldr := (congrArg State.ldr h.1).trans rfl
theorem beside_pwr_eq : u.pwr = t.pwr := (congrArg State.pwr h.1).trans rfl
theorem beside_snt_eq : u.snt = t.snt := (congrArg State.snt h.1).trans rfl
theorem beside_free_eq : u.free = t.free := (congrArg State.free h.1).trans rfl
theorem beside_tbl_eq : u.tbl = t.tbl := (congrArg State.tbl h.1).trans rfl
theorem beside_srcs_eq : u.srcs = t.srcs := (congrArg State.srcs h.1).trans rfl
theorem beside_dsts_eq : u.dsts = t.dsts := (congrArg State.dsts h.1).trans rfl
theorem beside_ctxs_eq : u.ctxs = t.ctxs := (congrArg State.ctxs h.1).trans rfl
theorem beside_engs_eq : u.engs = t.engs := (congrArg State.engs h.1).trans rfl
theorem beside_clusters_eq : u.clusters = t.clusters := (congrArg State.clusters h.1).trans rfl
theorem beside_locks_eq : u.locks = t.locks := (congrArg State.locks h.1).trans rfl
theorem beside_arbs_eq : u.arbs = t.arbs := (congrArg State.arbs h.1).trans rfl
theorem beside_wins_eq : u.wins = t.wins := (congrArg State.wins h.1).trans rfl
theorem beside_bases_eq : u.bases = t.bases := (congrArg State.bases h.1).trans rfl

end

/-- A command whose meaning is `done s t`: a next state with `t` and what stands beside it. -/
theorem next_of_done {c : Instr} {s t : State} (hc : exec c s = done s t) (h : t.snt.warmDue = false) :
    ∃ u, exec c s = .next u ∧ Beside { t with pending := s.pending } u := by
  rw [hc]
  exact done_beside s t h

end Sys2Proof.Laws
end

