-- ==== Sys2Proof/Laws/Issue.lean ====
section
/-! SUPPORT. What an instruction does when it issues: the checks of the issue pass and its effect runs. -/

namespace Sys2Proof.Laws

open Sys2Proof.Machine Sys2Proof

/-- An instruction that issues has its effect. -/
theorem issue_runs {s : State} {e : Nat} {i j : Instr} {chk : Chk} {run : State → State} (h : Issues s e j)
    (hw : insnWord i = insnWord j) (hn : s.slotNo e i = s.slotNo e j)
    (hf : chk ≠ .eccFetch) (hr : chk = .residue → residueCycles i = none) :
    s.issue e i chk run = run s := by
  obtain ⟨⟨h1, h0, h2, h3, h4, h5, h6, -⟩, h7, h8⟩ := h
  have h8' : s.slotOut e i = false := by rw [← h8]; unfold State.slotOut; rw [hn]
  unfold State.issue
  simp only [h1, h0, h5, h6, h7, h8', hw, hf, Bool.true_eq_false, if_false, ne_eq, not_true_eq_false, Bool.false_eq_true]
  rw [if_neg (by rintro ⟨a, b⟩; rcases h2 with c | c; · omega
                 · exact b ⟨c.2, c.1⟩), if_neg (by rintro (a | a) <;> omega)]
  split
  · rename_i n hn'
    by_cases hc : chk = .residue
    · rw [hr hc] at hn'; cases hn'
    · rw [if_neg hc]
  · rfl

/-- The same for the plain form of an instruction. -/
theorem issue_ok {s : State} {e : Nat} {i : Instr} {run : State → State} (h : Issues s e i) :
    s.issue e i .ok run = run s :=
  issue_runs h rfl rfl (by decide) (fun h => by cases h)

/-- A command whose meaning changes engine `e` alone, beside what `s'` has changed. -/
theorem leaves_of {c : Instr} {s s' t : State} {e : Nat} {y : Eng} (hc : exec c s = done s t)
    (ht : t = { s' with engs := t.engs }) (hy : t.eng e = y) (ho : ∀ k, k ≠ e → t.eng k = s'.eng k)
    (hw : s'.snt.warmDue = false) : Leaves c s s' e y := by
  have hw' : t.snt.warmDue = false := by rw [ht]; exact hw
  obtain ⟨u, hu, hb⟩ := done_beside s t hw'
  have he : u.engs = t.engs := by rw [hb.1]
  refine ⟨u, hc.trans hu, ?_, ?_, ?_⟩
  · unfold State.eng at *; rw [he]; exact hy
  · intro k hk; have := ho k hk; unfold State.eng at *; rw [he]; exact this
  · rw [he]; rw [ht] at hb; exact hb

/-- `t` is `s` with engine `e` changed to `y`. -/
structure EngBecomes (e : Nat) (s t : State) (y : Eng) : Prop where
  rest : t = { s with engs := t.engs }
  own : t.eng e = y
  other : ∀ k, k ≠ e → t.eng k = s.eng k

theorem EngBecomes.mod (e : Nat) (s : State) (f : Eng → Eng) : EngBecomes e s (s.modEng e f) (f (s.eng e)) :=
  ⟨rfl, by simp, fun k hk => by simp [hk]⟩

theorem EngBecomes.then {e : Nat} {s t u : State} {y z : Eng} (h : EngBecomes e s t y) (g : EngBecomes e t u z) :
    EngBecomes e s u z := by
  refine ⟨?_, g.own, fun k hk => (g.other k hk).trans (h.other k hk)⟩
  have a := g.rest
  rw [h.rest] at a
  exact a

theorem EngBecomes.eng2 {e : Nat} {s t : State} {y : Eng} (h : EngBecomes e s t y) : t.eng2 = s.eng2 := by
  rw [h.rest]; rfl

/-- A register write, then an advance. -/
theorem engBecomes_advance {e : Nat} {s t : State} {y : Eng} (h : EngBecomes e s t y) (target n : Nat) :
    EngBecomes e s (t.advanceTo e target n) (y.advance s.eng2 target n) := by
  have g := h.then (EngBecomes.mod e t fun x => x.advance t.eng2 target n)
  rw [h.own, h.eng2] at g
  unfold State.advanceTo
  rw [h.eng2]
  exact g

/-- The advance to the next index. -/
theorem engBecomes_next {e : Nat} {s t : State} {y : Eng} (h : EngBecomes e s t y) (n : Nat) :
    EngBecomes e s (t.advance e n) (y.advance s.eng2 (y.pc + 1) n) := by
  unfold State.advance
  rw [h.own]
  exact engBecomes_advance h _ n

theorem engBecomes_wreg (e : Nat) (s : State) (d : BitVec 5) (v : Word) :
    EngBecomes e s (s.setWreg e d v) { s.eng e with regs := mSet (fun _ => 0) (s.eng e).regs d.toNat v } :=
  EngBecomes.mod e s _

/-- SAT and a register after a saturating result. -/
theorem engBecomes_sat (e : Nat) (s : State) (d : BitVec 5) (n : Nat) (v : Int) :
    EngBecomes e s (s.setSat e d n v)
      { s.eng e with sat := (s.eng e).sat || !fitsInt n v,
                     regs := mSet (fun _ => 0) (s.eng e).regs d.toNat (BitVec.ofInt 32 (satInt n v)) } := by
  have h := EngBecomes.mod e s fun x => { x with sat := x.sat || !fitsInt n v }
  have g := h.then (engBecomes_wreg e _ d (BitVec.ofInt 32 (satInt n v)))
  rw [h.own] at g
  exact g

/-- SAT and the accumulator after an accumulation. -/
theorem engBecomes_acc (e : Nat) (s : State) (v : Int) :
    EngBecomes e s (s.setAcc e v)
      { s.eng e with sat := (s.eng e).sat || !fitsInt 72 v, acc := BitVec.ofInt 72 (satInt 72 v) } := by
  have h := EngBecomes.mod e s fun x => { x with sat := x.sat || !fitsInt 72 v }
  have g := h.then (EngBecomes.mod e _ fun x => { x with acc := BitVec.ofInt 72 (satInt 72 v) })
  rw [h.own] at g
  exact g

/-- An instruction whose effect turns its engine into `y`. -/
theorem leaves_issue {i : Instr} {s : State} {e : Nat} {run : State → State} {y : Eng}
    (hx : exec i s = done s (s.issue e i .ok run)) (hi : Issues s e i)
    (hr : EngBecomes e s (run s) y) : Leaves i s s e y :=
  leaves_of (hx.trans (by rw [issue_ok hi])) hr.rest hr.own hr.other hi.1.2.2.2.2.2.2.2

/-- An instruction whose effect writes a register and advances. -/
theorem leaves_put {i : Instr} {s : State} {e : Nat} {run : State → State} {d : BitVec 5} {v : Word} {n : Nat}
    (hx : exec i s = done s (s.issue e i .ok run)) (hi : Issues s e i)
    (hr : run s = s.put e d v n) :
    Leaves i s s e
      (({ s.eng e with regs := mSet (fun _ => 0) (s.eng e).regs d.toNat v }).advance
        s.eng2 ((s.eng e).pc + 1) n) := by
  refine leaves_issue hx hi ?_
  rw [hr]
  exact engBecomes_next (engBecomes_wreg e s d v) n

end Sys2Proof.Laws
end

