-- ==== Sys2Proof/Tests/Slice0.lean ====
section
/-! SUPPORT. The model's own tests: the well-formedness smoke, single steps, and for every statement with hypotheses a state and
operands that meet them, clause by clause. -/

open Sys2Proof Sys2Proof.Machine

section Slice0

-- One after another: many kernel evaluations at once ask for more threads than the check allows.
set_option Elab.async false

/-- Engine 0 running a reflex of one instruction. -/
def oneInsn (i : Instr) (len : Nat) : State :=
  { engs := [(0, { st := .run, budget := 1000, len := len, slotv := true })], tbl := [(0x780000, (insnWord i).getD 0)] }

/-! ## Well-formedness -/

/-- One ill-formed command for each check, at the first value past its range. -/
theorem test_wf_refuses :
    ∀ i ∈ ([.registerWrite (2 ^ 25) .b32 0, .postedWriteApply 257, .wiredInputChange 2048 true 1, .doorbellNp 2 0 0 0,
      .speculativeOffer 576, .claim 512, .selfTest 512, .missingIndex 16, .ctxArm 0 4096, .mapSrc 256, .reinit 5409,
      .windowBoundary (.sram 48), .grantDecision .nvm ⟨[8], false⟩, .tblDataWrite 0 16 .plain 0, .dpCfgWrite 0 64 false 0, .wireWakeLatch 64 true,
      .entryInsertion 32, .completionWorkDone 0x5A40, .engineTake 64, .completionAccept 32, .lockHoldBite 64, .powerAck 40,
      .scrub (.uncorrectable 5409 false false), .readRec 257 0] : List Instr), i.wf = false := by decide

/-- The same at the last value of its range. -/
theorem test_wf_admits :
    ∀ i ∈ ([.registerWrite (2 ^ 25 - 1) .b32 0, .postedWriteApply 256, .wiredInputChange 2047 true 1, .doorbellNp 1 0 0 0,
      .speculativeOffer 575, .claim 511, .selfTest 511, .missingIndex 15, .ctxArm 256 4095, .mapSrc 255, .reinit 5408,
      .windowBoundary (.sram 47), .grantDecision .nvm ⟨[7], false⟩, .tblDataWrite 0 15 .plain 0, .dpCfgWrite 0 63 false 0, .wireWakeLatch 63 true,
      .entryInsertion 31, .completionWorkDone 0x5A3F, .engineTake 63, .completionAccept 31, .lockHoldBite 63, .powerAck 39,
      .scrub (.uncorrectable 5408 false false), .readRec 256 0] : List Instr), i.wf = true := by decide

/-- One ill-formed journal entry for each check (R285). -/
theorem test_wf_refuses_entries :
    ∀ x ∈ ([.inst 0x5A40 0 0 0 0 0, .inst 0 5 0 0 0 0, .inst 0 0 16 0 0 0, .inst 0 0 0 576 0 0, .inst 0 0 0 0 65536 0, .ctx 4096 0 0,
      .ctx 0 (2 ^ 14) 0, .base 16 0 0 0, .base 0 512 0 0, .lock 64 false false false 0, .lock 0 false false false 512, .cnt 256 0 0 0,
      .cnt 0 16 0 0, .cnt 0 0 (2 ^ 24) 0, .cfg 256 0 0 0, .cfg 0 16 0 0, .cfg 0 0 (2 ^ 24) 0] : List JEntry),
      (Instr.journal { good := true, fseq := 0, last := false, entries := [x] }).wf = false := by decide

/-! ## Single steps, with values taken from the rules -/

/-- The state a command gives. -/
def after (i : Instr) (s : State) : State := match exec i s with
  | .next t => t
  | .fault _ => s
  | .refused _ => s

/-- R193: ADDS of 0x7FFFFFFF and 1 saturates and sets SAT. -/
theorem test_adds_saturates :
    let s := (oneInsn (.adds 0 1 2 3 .ok) 1).modEng 0 fun x => { x with regs := [(2, 0x7FFFFFFF#32), (3, 1)] }
    let t := after (.adds 0 1 2 3 .ok) s
    t.wreg 0 1 = 0x7FFFFFFF ∧ (t.eng 0).sat = true := by decide +kernel

/-- R197: SUB wraps. -/
theorem test_sub_wraps :
    let s := (oneInsn (.sub 0 1 1 2 .ok) 1).modEng 0 fun x => { x with regs := [(1, 0#32), (2, 1)] }
    (after (.sub 0 1 1 2 .ok) s).wreg 0 1 = 0xFFFFFFFF := by decide +kernel

/-- R48 and the table of reset values: the intake tick divider is 0x0C7F at reset. -/
theorem test_reset_tick_div : State.reset.reg 0x0200 = 0x0C7F := by decide

/-- On an empty queue a step is one RANK_CLK edge (log 1). -/
theorem test_empty_queue_ticks : (match step State.reset with | .next t => t.rank | _ => 0) = 1 := by decide +kernel

/-- The front of the queue runs first. -/
theorem test_first_in_first_out :
    (match step { pending := [.safe, .warm] } with | .next t => t.pending | _ => []) = [.warm] := by decide +kernel

/-- R194: rounding codes of -3 / 2 and 5 / 4. -/
theorem test_rounding_quarter : (roundShift 5 2 0, roundShift 5 2 1, roundShift 6 2 2, roundShift 6 2 3) = (1, 1, 2, 2) := by decide

/-! ## Reset and invariants, words and orders -/

theorem witness_RoundingCodes : 0 < 1 ∧ roundShift (-3) 1 0 = -2 ∧ roundShift (-3) 1 1 = -1 ∧ roundShift (-3) 1 2 = -2 ∧
    roundShift (-3) 1 3 = -2 := by decide

theorem witness_UrgencyOrder :
    let a : Key := { cls := 1, prio := 2, psn := 5 }
    let b : Key := { cls := 1, prio := 3, psn := 4 }
    let c : Key := { cls := 2, prio := 0, psn := 3 }
    a.psn ≠ b.psn ∧ moreUrgent 7 a b = true ∧ moreUrgent 7 b c = true := by decide

theorem witness_WordsReadBack :
    (30#5 ≠ 31) ∧ ((7#5).toNat ≤ 0x0A ∧ (7#5 = 0 ∨ 7#5 = 7 ∨ 7#5 = 8 → 0#5 = 0 ∧ 0#5 = 0)) ∧ ((4#5).toNat ≤ 0x0A) ∧
      (255#8 ≠ 0 ∧ 1#8 ≠ 0) ∧ ((8#5).toNat ≤ 8) ∧ (readWord 0 0x4A000FFF#32 = some (.andi 0 16 0 0x0FFF .ok)) ∧
      ((0xCC000000#32 : Word).toNat / 2 ^ 26 = 0x33) := by decide

theorem witness_ResetStates : keptKey 0x28A0 = true ∧ keptKey 0x1000 = false ∧ State.reset.reg 0x0200 = 0x00000C7F := by decide

theorem witness_WarmResetsAreDone : ∃ s t : State, step s = .next t := ⟨{ pending := [.safe] }, _, rfl⟩

theorem witness_CanonicalFormIsKept : ∃ s t : State, step s = .next t ∧ s.Canonical :=
  ⟨{ pending := [.safe] }, _, rfl, rfl, rfl, rfl⟩

/-! ## Reflex instructions -/

theorem witness_AluResults :
    ∀ i ∈ ([.add 0 1 2 3 .ok, .sub 0 1 2 3 .ok, .and 0 1 2 3 .ok, .or 0 1 2 3 .ok, .xor 0 1 2 3 .ok, .shl 0 1 2 3 .ok,
      .shr 0 1 2 3 .ok, .sra 0 1 2 3 .ok, .min 0 1 2 3 .ok, .max 0 1 2 3 .ok, .clmp 0 1 2 30 .ok, .addi 0 31 2 0xFFFF .ok,
      .andi 0 1 2 3 .ok, .ori 0 1 2 3 .ok, .ldi 0 1 0x8000 .ok, .lui 0 1 2 .ok, .shli 0 1 2 31 .ok, .shri 0 1 2 31 .ok,
      .srai 0 1 2 31 .ok] : List Instr), Issues (oneInsn i 1) 0 i := by
  simp only [Issues, Fetches]; decide +kernel

theorem witness_AluResults_saturating :
    ∀ i ∈ ([.adds 0 1 2 3 .ok, .subs 0 1 2 3 .ok, .abs 0 1 2 .ok, .addis 0 1 2 3 .ok, .mul 0 1 2 3 31 3 .ok] : List Instr),
      Issues (oneInsn i 1) 0 i := by
  simp only [Issues, Fetches]; decide +kernel

theorem witness_AluResults_accumulator :
    ∀ i ∈ ([.mac 0 1 2 .ok, .msu 0 1 2 .ok, .accld 0 1 31 .ok, .accadd 0 1 31 .ok, .accrd 0 1 31 3 true .ok,
      .accrd 0 1 0 0 false .ok] : List Instr), Issues (oneInsn i 1) 0 i := by
  simp only [Issues, Fetches]; decide +kernel

theorem witness_RoundingCodes_insns :
    ∀ i ∈ ([.mul 0 1 2 3 31 3 .ok, .accrd 0 1 31 3 true .ok, .accrd 0 1 0 0 false .ok] : List Instr), Issues (oneInsn i 1) 0 i := by
  simp only [Issues, Fetches]; decide +kernel

theorem witness_ControlFlow_advance :
    let x : Eng := { pc := 4 }
    let y : Eng := { pc := 4, lp := some { first := 2, last := 4, left := 2, firstPass := false } }
    let z : Eng := { pc := 3, lp := some { first := 2, last := 3, left := 1, firstPass := true } }
    (x.lp = none) ∧ (∃ l, y.lp = some l ∧ y.pc = l.last ∧ 1 < l.left) ∧ (∃ l, z.lp = some l ∧ z.pc = l.last ∧ l.left ≤ 1) ∧
      (∃ l, { y with pc := 2 }.lp = some l ∧ { y with pc := 2 }.pc ≠ l.last) :=
  ⟨rfl, ⟨_, rfl, by decide, by decide⟩, ⟨_, rfl, by decide, by decide⟩, ⟨_, rfl, by decide⟩⟩

/-- The places of engines that stalled at one edge, ascending (R202). -/
theorem witness_OutWrites_order :
    ([(3, 1, .plain 1 4 5), (3, 2, .plain 2 4 6)] : List (Nat × Nat × QItem)).Pairwise
      (fun x y => x.1 < y.1 ∨ x.1 = y.1 ∧ x.2.1 ≤ y.2.1) := by simp

/-- Doorbells that came at one FAB_CLK edge, MSG0's first (R73). -/
theorem witness_Messages_order :
    let b (p : Nat) : Bell := { port := p, addr := 0, data := 0, srcid := 0 }
    ([(3, b 0), (3, b 1)] : List (Nat × Bell)).Pairwise (fun x y => x.1 < y.1 ∨ x.1 = y.1 ∧ x.2.port ≤ y.2.port) := by simp

/-- A full held queue (R184, R204). -/
theorem witness_InstructionFaults_held :
    let o : Occ := { id := 50, ctx := 1, tgt := 0, dir := .fwd, either := false, raised := 0, late := false, engine := some 0,
                     places := List.replicate 8 (.write 4 5) }
    let i : Instr := .outh 0 0 0 0 .ok
    let s : State :=
      { engs := [(0, { st := .run, len := 1, budget := 1000, occ := some 50 })], occs := [(50, o)], ldr := { phase := .opened },
        srcs := [(0x4801, { st := .active, q := [{ occ := some 50 }] })],
        tbl := [(tKey 0x0A 1 0, 256), (tKey 0x0F 0 0, (insnWord i).getD 0), (tKey 0x11 0 1, 0xFFFFFFFF), (tKey 0x11 0 2, 0xFFFFFFFF), (tKey 0x11 0 4, 1)],
        regs := [(0x1C00, 1)] }
    (s.eng 0).occ = some o.id ∧ mFind s.occs o.id = some o ∧ (s.eng 0).stall = .none ∧ (s.func 0).tmr = none ∧ (s.func 0).busy = false ∧
      (s.func 0).retired = false ∧ s.seqsOf 0 = [] ∧ o.st = .launched ∧ o.ctx < 4096 ∧ (s.src 0x4801).st = .active ∧
      ((s.src 0x4801).q.any fun i => i.occ == some o.id) = true ∧ (∀ p ∈ o.places, ∃ a d, p = .write a d) ∧
      bit (s.ccfg o.ctx) 8 = true ∧ Issues s 0 i ∧ s.outPass 0 0 = true ∧ s.openSeq 0 = none ∧ 8 ≤ s.heldBy 0 := by
  refine ⟨rfl, rfl, rfl, rfl, rfl, rfl, by decide +kernel, rfl, by decide, by decide +kernel, by decide +kernel,
    fun p h => ⟨4, 5, by simpa using h⟩, by decide +kernel, ?_, by decide +kernel, by decide +kernel, by decide +kernel⟩
  simp only [Issues, Fetches]; decide +kernel

/-! ## Saves, strikes, the takeover -/

/-- A machine whose header places the last-settings copies in `n` bytes at 0x10000. -/
def savePlace (n : Nat) : State :=
  { ldr := { hdr := some { regions := [(0, 0), (0, 0), (0, 0), (0, 0), (0x10000, n)] } } }

/-- Such a machine may save, when a half holds its profile. -/
theorem save_fits (n : Nat) (hn : n ≠ 0) :
    PortActs (savePlace n) 4 ∧ (savePlace n).ldr.busy = false ∧ (savePlace n).ldr.held = [] ∧ (savePlace n).snt.warmDue = false ∧
      (savePlace n).region 4 = some (0x10000, n) ∧ (savePlace n).protectedAt 0x10000 n = false ∧
      (savePlace n).saveImage = (savePlace 0).saveImage := by
  refine ⟨⟨rfl, rfl, nofun⟩, rfl, rfl, rfl, by simp [savePlace, State.region, hn], ?_, ?_⟩
  · simp [savePlace, State.protectedAt, State.protRec, State.region]
  · simp only [State.saveImage, State.tw, State.reg, savePlace]

/-- A save that fits its half: the premises of SavesRetunesSwaps and RowsTakeEffect for SAVE. -/
theorem witness_SavesRetunesSwaps_room :
    ∃ (s : State) (b n : Nat), PortActs s 4 ∧ s.ldr.busy = false ∧ s.ldr.held = [] ∧ s.snt.warmDue = false ∧
      s.region 4 = some (b, n) ∧ s.protectedAt b n = false ∧ s.saveImage.length ≤ n / 2 := by
  obtain ⟨h1, h2, h3, h4, h5, h6, h7⟩ := save_fits (2 * (savePlace 0).saveImage.length + 2) (by omega)
  exact ⟨_, _, _, h1, h2, h3, h4, h5, h6, by rw [h7]; omega⟩

theorem witness_Strikes_return :
    let t : Trans := { ph := .raising, tgt := [], ropen := false, raise := [4], acked := [4], ask := [], asked := 0, stopped := [],
                       await := [], at_ := 0, next := 0, wake := false, pm := false, cold := false }
    let s : State := { pwr := { trans := some t, dom := [(4, .off)] } }
    s.pwr.trans = some t ∧ 4 < 40 ∧ s.snt.warmDue = false ∧ t.ph = .raising ∧ t.raise = 4 :: [] ∧ 4 ≠ 5 ∧ t.acked = [4] ∧ t.next ≤ s.slowEdge ∧
      (4 = 1 → s.dom 1 ≠ .ret) ∧ (4 = 0 → s.ldr.phase ≠ .opened) ∧ s.log.pfWant = 0 ∧ t.cold = false ∧
      (∀ k ∈ strikeOrder, tgtOf t.tgt k = .on) ∧ (∀ k, k ≠ 4 → s.dom k = .on) ∧
      t.ropen = false ∧ t.boot = false ∧ s.pwr.lateWake = none ∧ s.pwr.pmReq = none ∧ s.pwr.warmWait = false := by
  refine ⟨rfl, by decide, rfl, rfl, rfl, by decide, rfl, Nat.le_refl _, nofun, nofun, rfl, rfl, by decide, ?_, rfl, rfl, rfl, rfl, rfl⟩
  intro k hk
  simp [State.dom, mGet, mFind, hk]

/-- No context is enabled in a machine whose tables hold nothing but their reset values. -/
theorem no_ctx (s : State) (h : s.tbl = []) : ∀ k < 4096, bit (s.ccfg k) 0 = false := by
  have a : ∀ i < 64, ∀ j < 64, bit (({} : State).ccfg (64 * i + j)) 0 = false := by decide +kernel
  intro k hk
  have b := a (k / 64) (by omega) (k % 64) (by omega)
  rw [Nat.div_add_mod] at b
  simpa only [State.ccfg, State.tw, h] using b

/-- A takeover whose visits have ended: the premises of MirrorLoss and RowsTakeEffect for TAKEOVER_OPEN. -/
theorem witness_MirrorLoss_opens :
    let s : State := { mir := { role := .takeover, takeAt := some 0x5A40 } }
    s.snt.warmDue = false ∧ s.domStill 3 = false ∧ s.mir.takeAt = some 0x5A40 ∧ s.mir.role = .takeover ∧ 0x5A40 ≤ 0x5A40 ∧
      s.ins = [] ∧ (∀ k < 4096, bit (s.ccfg k) 0 = false) :=
  ⟨rfl, rfl, rfl, rfl, by decide, rfl, no_ctx _ rfl⟩

theorem witness_RecordAssembly_ring_full :
    let s : State := { rank := 16, regs := [(0x3400, 4)], log := { reqs := [{}], fly := List.replicate 8192 {} } }
    s.snt.warmDue = false ∧ s.log.reqs = [{}] ∧ s.log.clearQ = none ∧ ({} : Rec).kind ≠ 0x11 ∧ s.log.asmAt + 8 ≤ s.eng2 ∧ s.domStill 0 = false ∧ s.log.tally = [] ∧
      ([] : List Rec).length ≤ 32 ∧ bit (s.reg 0x3408) 0 = false ∧ s.log.drain = false ∧ s.log.degr = false ∧ 8192 ≤ s.log.fly.length ∧
      bit (s.reg 0x3400) 1 = false := by
  refine ⟨rfl, rfl, rfl, by decide, by decide, rfl, rfl, by decide, by decide, rfl, rfl, ?_, by decide⟩
  show 8192 ≤ (List.replicate 8192 ({} : Rec)).length
  exact Nat.le_of_eq List.length_replicate.symm


/-! ## The other statements, clause by clause -/

/-- NVM bytes of a protection record at 0x500000: region 5, an empty key, its CRC-32. -/
def protNvm : SMap Byte :=
  ((0x20#8 :: 0#8 :: 0xA5#8 :: List.replicate 57 0#8) ++ [190#8, 174, 7, 106]).zipIdx.map fun x => (0x500000 + x.2, x.1)

/-- The first 0x7C bytes of an image header: hseq 1, NOR, 4 KiB sectors, 256-byte pages, slot 0 at 0x2000. -/
def imageHead : List Byte :=
  [0x52#8, 0x4E, 0x48, 0x49, 1, 0, 0x80, 0, 1, 0, 0, 0, 1, 0, 0, 0] ++ [0, 0, 0, 0, 0, 0, 0, 12, 8, 0, 1, 0, 1, 0, 1, 0] ++
    [0, 0x20, 0, 0, 0x40, 0, 0, 0] ++ List.replicate 84 0

/-- The CRC-32 of that header. -/
theorem crc_imageHead : crc32 imageHead = 0xBCBAA74C#32 := by simp [crc32, imageHead, crcByte, List.replicate]

/-- The first 0x3C bytes of a profile of slot 0: 64 bytes long, no sections, epoch 5. -/
def profileHead : List Byte :=
  [0x52#8, 0x4E, 0x48, 0x50, 0, 1, 0, 0, 64, 0, 0, 0, 5, 0, 0, 0] ++ List.replicate 44 0

/-- That profile with its CRC-32. -/
def profile : List Byte := profileHead ++ [0x53#8, 0x45, 0x9C, 0x9F]

/-- The CRC-32 of that profile. -/
theorem crc_profileHead : crc32 (profileHead ++ List.replicate 4 0#8) = 0x9F9C4553#32 := by
  simp [crc32, profileHead, crcByte, List.replicate]

/-- An NVM with that header and that profile. -/
def startNvm : SMap Byte :=
  ((imageHead ++ [0x4C#8, 0xA7, 0xBA, 0xBC]).zipIdx.map fun x => (x.2, x.1)) ++ (profile.zipIdx.map fun x => (0x2000 + x.2, x.1))

/-- What a start finds there. -/
def startHdr : Header :=
  { hseq := 1, nor := true, lsect := 12, lpage := 8, uselast := false, fbp0 := false, div := 0, opRead := 0, ops := List.replicate 6 0, tprog := 1, terase := 1, trst := 1, tsusp := 0,
    regions := (0x2000, 0x40) :: List.replicate 10 (0, 0) }

/-- A start with that NVM finds that header. -/
theorem findHeader_startNvm (s : State) (h : s.ldr.nvm = startNvm) : s.findHeader = some startHdr := by
  have a : (List.range 128).map (fun i => mGet (fun _ => 0xFF#8) startNvm (0 + i)) = imageHead ++ [0x4C#8, 0xA7, 0xBA, 0xBC] := by
    decide +kernel
  have b : headerOf ((List.range 128).map fun i => mGet (fun _ => 0xFF#8) startNvm (0x1000 + i)) = none := by decide +kernel
  have c : headerOf (imageHead ++ [0x4C#8, 0xA7, 0xBA, 0xBC]) = some startHdr := by
    have t : (imageHead ++ [0x4C#8, 0xA7, 0xBA, 0xBC]).take 0x7C = imageHead := by decide +kernel
    simp only [headerOf, t, crc_imageHead]
    decide +kernel
  simp only [State.findHeader, h, a, b, c]

/-- What those bytes spell. -/
theorem profOf_profile : profOf profile = some profile := by
  have n : fieldAt profile 8 4 = 64 := by decide +kernel
  have b : profBody (profile.take 64) = profileHead ++ List.replicate 4 0#8 := by decide +kernel
  simp only [profOf, n, b, crc_profileHead]
  decide +kernel

/-- A start with a retention record. -/
def startWith (r : RetRec) : State := { ldr := { nvm := startNvm, ret := r } }

/-- What it has prepared. -/
def prepared (r : RetRec) : State := { ldr := { nvm := startNvm, ret := r, hdr := some startHdr, phase := .check } }

theorem prepare_startWith : (startWith {}).prepare = prepared {} := by
  simp only [State.prepare]
  rw [findHeader_startNvm _ (by rfl)]
  decide +kernel

/-- A record of a retained state that is valid with that NVM (R252). -/
def goodRet : RetRec := { valid := true, memkept := true, path := 3, hseq := 1#32, epoch := 5#32, same := true }

theorem prepare_goodRet : (startWith goodRet).prepare = prepared goodRet := by
  simp only [State.prepare]
  rw [findHeader_startNvm _ (by rfl)]
  decide +kernel

/-- A start with a valid retained state, and one with a valid profile in the selected slot (R249, R252). -/
theorem witness_StartsAndRestarts_opens :
    (let s := startWith goodRet
     s.snt.warmDue = false ∧ s.startDue = true ∧ s.prepare.ldr.hdr.isSome = true ∧ s.prepare.retainedOk = true) ∧
    (let s := startWith {}
     s.snt.warmDue = false ∧ s.startDue = true ∧ s.prepare.ldr.hdr.isSome = true ∧ s.prepare.retainedOk = false ∧
       s.prepare.header.uselast = false ∧ s.prepare.profAt s.ldr.sel = some profile ∧ sections profile = []) := by
  refine ⟨⟨by decide +kernel, by decide +kernel, ?_, ?_⟩, ⟨by decide +kernel, by decide +kernel, ?_, ?_, ?_, ?_, by decide +kernel⟩⟩
  · rw [prepare_goodRet]; decide +kernel
  · rw [prepare_goodRet]; decide +kernel
  · rw [prepare_startWith]; decide +kernel
  · rw [prepare_startWith]; decide +kernel
  · rw [prepare_startWith]; decide +kernel
  · rw [prepare_startWith]
    have r : (prepared {}).nvmBytes 0x2000 0x40 = profile := by decide +kernel
    have g : (prepared {}).region 0 = some (0x2000, 0x40) := by decide +kernel
    have z : fieldAt profile 4 1 = 0 := by decide +kernel
    rw [show (startWith {}).ldr.sel = 0 from rfl]
    simp only [State.profAt, Nat.reduceLT, if_true, g, show min 0x40 0x200000 = 0x40 from rfl, r, profOf_profile, z]
    rfl

theorem witness_ControlFlow :
    (let s : State := { tbl := [(7864320, 3223322624#32)], engs := [(0, { st := .run, len := 1, budget := 1000 })] }
    let e : Nat := 0
    let a : BitVec 5 := 0#5
    let b : BitVec 5 := 0#5
    let off : BitVec 11 := 0#11
    let x := s.eng e
    let u := s.wreg e a
    let v := s.wreg e b
    ∃ p ∈ (([(0x00, True), (0x01, u = v), (0x02, u ≠ v), (0x03, u.toInt < v.toInt), (0x04, v.toInt ≤ u.toInt),
             (0x05, u < v), (0x06, v ≤ u), (0x07, x.sat = true), (0x08, x.sat = false), (0x09, u &&& v ≠ 0),
             (0x0A, u &&& v = 0)] : List (BitVec 5 × Bool))), Issues s e (.br e p.1 a b off .ok) ∧
    p.2) ∧
    (let s : State := { tbl := [(7864320, 3225419776#32)], engs := [(0, { st := .run, len := 1, budget := 1000 })] }
    let e : Nat := 0
    let a : BitVec 5 := 0#5
    let b : BitVec 5 := 0#5
    let off : BitVec 11 := 0#11
    let x := s.eng e
    let u := s.wreg e a
    let v := s.wreg e b
    ∃ p ∈ (([(0x00, True), (0x01, u = v), (0x02, u ≠ v), (0x03, u.toInt < v.toInt), (0x04, v.toInt ≤ u.toInt),
             (0x05, u < v), (0x06, v ≤ u), (0x07, x.sat = true), (0x08, x.sat = false), (0x09, u &&& v ≠ 0),
             (0x0A, u &&& v = 0)] : List (BitVec 5 × Bool))), Issues s e (.br e p.1 a b off .ok) ∧
    ¬p.2) ∧
    (let s : State := { tbl := [(7864320, 3288334593#32)], engs := [(0, { st := .run, len := 10, budget := 1000 })] }
    let e : Nat := 0
    let body : BitVec 8 := 1#8
    let bound : BitVec 8 := 1#8
    Issues s e (.loop e body bound .ok)) ∧
    (let s : State := { tbl := [(7864320, 3355443457#32)], engs := [(0, { st := .run, regs := [(0, 5#32)], len := 10, budget := 1000 })] }
    let e : Nat := 0
    let a : BitVec 5 := 0#5
    let body : BitVec 8 := 1#8
    let bound : BitVec 8 := 1#8
    let n := min (max (s.wreg e a).toInt 0).toNat bound.toNat
    Issues s e (.loopr e a body bound .ok) ∧
    n ≠ 0) ∧
    (let s : State := { tbl := [(7864320, 3355443457#32)], engs := [(0, { st := .run, len := 10, budget := 1000 })] }
    let e : Nat := 0
    let a : BitVec 5 := 0#5
    let body : BitVec 8 := 1#8
    let bound : BitVec 8 := 1#8
    let n := min (max (s.wreg e a).toInt 0).toNat bound.toNat
    Issues s e (.loopr e a body bound .ok) ∧
    n = 0) := by
  refine ⟨?_, ?_, ?_, ?_, ?_⟩ <;> (simp only [Issues, Fetches]; decide +kernel)

theorem witness_StatusAndSlots :
    (let s : State := { tbl := [(7864320, 67108864#32)], engs := [(0, { st := .run, len := 1, budget := 1000 })] }
    let e : Nat := 0
    Issues s e (.nop e .ok)) ∧
    (let s : State := { tbl := [(7864320, 3825205248#32)], engs := [(0, { st := .run, len := 1, budget := 1000 })] }
    let e : Nat := 0
    let d : BitVec 5 := 0#5
    let x := s.eng e
    e < 512 ∧ (let q := s.openSeq e
    let held := (q.map fun q => q.locks.foldl max 0).getD 0
    let occ := (s.engOcc e).map Occ.st
    let flag := fun (b : Prop) [Decidable b] (n : Nat) => if b then n else 0
    ∃ p ∈ (([(0, wd (e + 512 * (e / 32))), (1, wd (s.eng2 - x.startAt + 1)),
               (2, wd (flag (x.sat = true) 1 + flag (q.isSome = true) 2 + flag (occ = some .ordered) 4 + flag (occ = some .squashed) 8)),
               (3, wd (8 - s.heldBy e)), (4, wd (held % 64 + flag (q.isSome = true) 64)),
               (5, wd (((s.openSeq e).map fun q => q.writes.length).getD 0)), (6, x.acc.setWidth 32),
               (7, (x.acc >>> 32).setWidth 32), (8, ((x.acc >>> 64).setWidth 8).signExtend 32)] : List (BitVec 5 × Word))), Issues s e (.rds e d p.1 .ok))) ∧
    (let s : State := { tbl := [(7864320, 2684354560#32)], engs := [(0, { st := .run, len := 1, budget := 1000, slotv := true })] }
    let e : Nat := 0
    let d : BitVec 5 := 0#5
    let off : BitVec 8 := 0#8
    Issues s e (.lds e d off .ok)) ∧
    (let s : State := { tbl := [(7864320, 2751463424#32)], engs := [(0, { st := .run, len := 1, budget := 1000, slotv := true })] }
    let e : Nat := 0
    let d : BitVec 5 := 0#5
    let a : BitVec 5 := 0#5
    let off : BitVec 8 := 0#8
    Issues s e (.ldsx e d a off .ok)) ∧
    (let s : State := { tbl := [(7864320, 2818572288#32)], engs := [(0, { st := .run, len := 1, budget := 1000, slotv := true })] }
    let e : Nat := 0
    let d : BitVec 5 := 0#5
    let off : BitVec 8 := 0#8
    Issues s e (.sts e d off .ok)) ∧
    (let s : State := { tbl := [(7864320, 2885681152#32)], engs := [(0, { st := .run, len := 1, budget := 1000, slotv := true })] }
    let e : Nat := 0
    let d : BitVec 5 := 0#5
    let a : BitVec 5 := 0#5
    let off : BitVec 8 := 0#8
    Issues s e (.stsx e d a off .ok)) ∧
    (let s : State := {}
    let e : Nat := 0
    let f : Nat := 1
    let j : Nat := 0
    e < f ∧
    f < 512 ∧
    (s.eng e).slot = (s.eng f).slot ∧ (let i := 16 * (s.eng e).slot + j / 16
    mFind s.edge.slots (tKey 0x10 i (j % 16)) = none)) ∧
    (let s : State := {}
    let e : Nat := 0
    let f : Nat := 1
    let j : Nat := 0
    e < f ∧
    f < 512 ∧
    (s.eng e).slot = (s.eng f).slot ∧ (let i := 16 * (s.eng e).slot + j / 16
    mFind s.edge.slots (tKey 0x10 i (j % 16)) = none ∧
    mWf (fun _ => {}) s.engs = true)) ∧
    (let s : State := { engs := [(1, { ldAt := (some (0, (0, 0#5))) })] }
    let e : Nat := 0
    let f : Nat := 1
    let j : Nat := 0
    e < f ∧
    f < 512 ∧
    (s.eng e).slot = (s.eng f).slot ∧ (let i := 16 * (s.eng e).slot + j / 16
    mFind s.edge.slots (tKey 0x10 i (j % 16)) = none ∧ (let d : BitVec 5 := 0#5
    mWf (fun _ => {}) s.engs = true ∧
    (s.eng f).ldAt = some (s.eng2, j, d)))) ∧
    (let s : State := {}
    let e : Nat := 0
    let f : Nat := 1
    let j : Nat := 0
    e < f ∧
    f < 512 ∧
    (s.eng e).slot = (s.eng f).slot ∧ (let i := 16 * (s.eng e).slot + j / 16
    mFind s.edge.slots (tKey 0x10 i (j % 16)) = none ∧
    mWf (fun _ => {}) s.engs = true ∧
    ((s.eng f).ldAt.map fun x => (x.1, x.2.1)) ≠ some (s.eng2, j))) := by
  refine ⟨?_, ?_, ?_, ?_, ?_, ?_, ?_, ?_, ?_, ?_⟩
  · simp only [Issues, Fetches]; decide +kernel
  · simp only [Issues, Fetches]; decide +kernel
  · simp only [Issues, Fetches]; decide +kernel
  · simp only [Issues, Fetches]; decide +kernel
  · simp only [Issues, Fetches]; decide +kernel
  · simp only [Issues, Fetches]; decide +kernel
  · decide +kernel
  · decide +kernel
  · decide +kernel
  · decide +kernel

theorem witness_OutWrites :
    (let s : State := { tbl := [(7864320, 2952790016#32)], engs := [(0, { st := .run, len := 1, budget := 1000 })] }
    let e : Nat := 0
    let r : BitVec 5 := 0#5
    let a : BitVec 5 := 0#5
    let off : BitVec 16 := 0#16
    let to_ := (s.wreg e a &&& 0xFFFFFFFC#32) + (off.signExtend 32 <<< 2)
    ∃ p ∈ (([(.out e r a off .ok, false), (.outh e r a off .ok, true)] : List (Instr × Bool))), Issues s e p.1 ∧
    (p.2 = true → s.engOcc e = none) ∧
    s.outPass e to_ = false ∧
    bit (s.reg 0x1C00) 1 = false) ∧
    (let s : State := { regs := [(7168, 1#32)], tbl := [(7864320, 2952790016#32), (8912898, 4294967295#32), (8912900, 1#32)], engs := [(0, { st := .run, len := 1, budget := 1000, seqId := (some 7) })], seqs := [(7, { id := 7, engine := 0, locks := [], writes := [], outh := false, ph := .opened })], ldr := { phase := .opened } }
    let e : Nat := 0
    let r : BitVec 5 := 0#5
    let a : BitVec 5 := 0#5
    let off : BitVec 16 := 0#16
    let to_ := (s.wreg e a &&& 0xFFFFFFFC#32) + (off.signExtend 32 <<< 2)
    ∃ p ∈ (([(.out e r a off .ok, false), (.outh e r a off .ok, true)] : List (Instr × Bool))), Issues s e p.1 ∧
    (p.2 = true → s.engOcc e = none) ∧ (let q : LSeq := { id := 7, engine := 0, locks := [], writes := [], outh := false, ph := .opened }
    s.outPass e to_ = true ∧
    s.openSeq e = some q ∧
    q.writes.length < 32)) ∧
    (let s : State := { regs := [(7168, 1#32)], tbl := [(7864320, 2952790016#32), (8912898, 4294967295#32), (8912900, 1#32)], engs := [(0, { st := .run, len := 1, budget := 1000 })], ldr := { phase := .opened } }
    let e : Nat := 0
    let r : BitVec 5 := 0#5
    let a : BitVec 5 := 0#5
    let off : BitVec 16 := 0#16
    let c := s.cluster (e / 16)
    let to_ := (s.wreg e a &&& 0xFFFFFFFC#32) + (off.signExtend 32 <<< 2)
    ∃ p ∈ (([(.out e r a off .ok, false), (.outh e r a off .ok, true)] : List (Instr × Bool))), Issues s e p.1 ∧
    (p.2 = true → s.engOcc e = none) ∧
    s.outPass e to_ = true ∧
    s.openSeq e = none ∧
    c.used < 16 ∧
    c.stalled = []) ∧
    (let s : State := { regs := [(7168, 1#32)], tbl := [(7864320, 2952790016#32), (8912898, 4294967295#32), (8912900, 1#32)], engs := [(0, { st := .run, len := 1, budget := 1000 })], clusters := [(0, { queue := [(.plain 0 0x00000004#32 0x00000005#32), (.plain 0 0x00000004#32 0x00000005#32), (.plain 0 0x00000004#32 0x00000005#32), (.plain 0 0x00000004#32 0x00000005#32), (.plain 0 0x00000004#32 0x00000005#32), (.plain 0 0x00000004#32 0x00000005#32), (.plain 0 0x00000004#32 0x00000005#32), (.plain 0 0x00000004#32 0x00000005#32), (.plain 0 0x00000004#32 0x00000005#32), (.plain 0 0x00000004#32 0x00000005#32), (.plain 0 0x00000004#32 0x00000005#32), (.plain 0 0x00000004#32 0x00000005#32), (.plain 0 0x00000004#32 0x00000005#32), (.plain 0 0x00000004#32 0x00000005#32), (.plain 0 0x00000004#32 0x00000005#32), (.plain 0 0x00000004#32 0x00000005#32)] })], ldr := { phase := .opened } }
    let e : Nat := 0
    let r : BitVec 5 := 0#5
    let a : BitVec 5 := 0#5
    let off : BitVec 16 := 0#16
    let c := s.cluster (e / 16)
    let to_ := (s.wreg e a &&& 0xFFFFFFFC#32) + (off.signExtend 32 <<< 2)
    ∃ p ∈ (([(.out e r a off .ok, false), (.outh e r a off .ok, true)] : List (Instr × Bool))), Issues s e p.1 ∧
    (p.2 = true → s.engOcc e = none) ∧
    s.outPass e to_ = true ∧
    s.openSeq e = none ∧
    (16 ≤ c.used ∨ c.stalled ≠ [])) ∧
    (let s : State := { regs := [(7168, 1#32)], tbl := [(7864320, 3019898880#32), (8912898, 4294967295#32), (8912900, 1#32)], occs := [(50, { id := 50, ctx := 1, tgt := 0#64, dir := .fwd, either := false, raised := 0, late := false })], engs := [(0, { st := .run, len := 1, budget := 1000, occ := (some 50) })], ldr := { phase := .opened } }
    let e : Nat := 0
    let r : BitVec 5 := 0#5
    let a : BitVec 5 := 0#5
    let off : BitVec 16 := 0#16
    let o : Occ := { id := 50, ctx := 1, tgt := 0#64, dir := .fwd, either := false, raised := 0, late := false }
    let to_ := (s.wreg e a &&& 0xFFFFFFFC#32) + (off.signExtend 32 <<< 2)
    Issues s e (.outh e r a off .ok) ∧
    s.outPass e to_ = true ∧
    s.openSeq e = none ∧
    s.engOcc e = some o ∧
    o.st = .launched ∧
    s.heldBy e < 8) ∧
    (let s : State := { regs := [(7168, 1#32)], tbl := [(7864320, 3019898880#32), (8912898, 4294967295#32), (8912900, 1#32)], occs := [(50, { id := 50, ctx := 1, tgt := 0#64, dir := .fwd, either := false, raised := 0, late := false, st := .squashed })], engs := [(0, { st := .run, len := 1, budget := 1000, occ := (some 50) })], ldr := { phase := .opened } }
    let e : Nat := 0
    let r : BitVec 5 := 0#5
    let a : BitVec 5 := 0#5
    let off : BitVec 16 := 0#16
    let o : Occ := { id := 50, ctx := 1, tgt := 0#64, dir := .fwd, either := false, raised := 0, late := false, st := .squashed }
    let to_ := (s.wreg e a &&& 0xFFFFFFFC#32) + (off.signExtend 32 <<< 2)
    Issues s e (.outh e r a off .ok) ∧
    s.outPass e to_ = true ∧
    s.openSeq e = none ∧
    s.engOcc e = some o ∧
    o.st = .squashed) ∧
    (let s : State := { regs := [(7168, 1#32)], tbl := [(7864420, 3022127104#32), (8912898, 4294967295#32), (8912900, 1#32)], occs := [(50, { id := 50, ctx := 1, tgt := 100#64, dir := .fwd, either := false, raised := 0, late := false, st := .ordered })], engs := [(1, { st := .run, pc := 100, entry := 90, len := 60, budget := 1000, occ := (some 50) })], ldr := { phase := .opened } }
    let e : Nat := 1
    let r : BitVec 5 := 1#5
    let a : BitVec 5 := 2#5
    let off : BitVec 16 := 0#16
    let o : Occ := { id := 50, ctx := 1, tgt := 100#64, dir := .fwd, either := false, raised := 0, late := false, st := .ordered }
    let to_ := (s.wreg e a &&& 0xFFFFFFFC#32) + (off.signExtend 32 <<< 2)
    Issues s e (.outh e r a off .ok) ∧
    s.outPass e to_ = true ∧
    s.openSeq e = none ∧
    s.engOcc e = some o ∧
    o.st = .ordered ∧
    mFind s.occs o.id = some o ∧ (let c := s.cluster (e / 16)
    c.used < 16 ∧
    c.stalled = [])) ∧
    (let s : State := { regs := [(7168, 1#32)], tbl := [(7864420, 3022127104#32), (8912898, 4294967295#32), (8912900, 1#32)], occs := [(50, { id := 50, ctx := 1, tgt := 100#64, dir := .fwd, either := false, raised := 0, late := false, st := .ordered })], engs := [(0, { st := .run, pc := 100, entry := 90, len := 60, budget := 1000, occ := (some 50) })], clusters := [(0, { queue := [(.plain 1 0x00000004#32 0x00000005#32), (.plain 1 0x00000004#32 0x00000005#32), (.plain 1 0x00000004#32 0x00000005#32), (.plain 1 0x00000004#32 0x00000005#32), (.plain 1 0x00000004#32 0x00000005#32), (.plain 1 0x00000004#32 0x00000005#32), (.plain 1 0x00000004#32 0x00000005#32), (.plain 1 0x00000004#32 0x00000005#32), (.plain 1 0x00000004#32 0x00000005#32), (.plain 1 0x00000004#32 0x00000005#32), (.plain 1 0x00000004#32 0x00000005#32), (.plain 1 0x00000004#32 0x00000005#32), (.plain 1 0x00000004#32 0x00000005#32), (.plain 1 0x00000004#32 0x00000005#32), (.plain 1 0x00000004#32 0x00000005#32), (.plain 1 0x00000004#32 0x00000005#32)] })], ldr := { phase := .opened } }
    let e : Nat := 0
    let r : BitVec 5 := 1#5
    let a : BitVec 5 := 2#5
    let off : BitVec 16 := 0#16
    let o : Occ := { id := 50, ctx := 1, tgt := 100#64, dir := .fwd, either := false, raised := 0, late := false, st := .ordered }
    let to_ := (s.wreg e a &&& 0xFFFFFFFC#32) + (off.signExtend 32 <<< 2)
    Issues s e (.outh e r a off .ok) ∧
    s.outPass e to_ = true ∧
    s.openSeq e = none ∧
    s.engOcc e = some o ∧
    o.st = .ordered ∧
    mFind s.occs o.id = some o ∧ (let c := s.cluster (e / 16)
    (16 ≤ c.used ∨ c.stalled ≠ []))) := by
  refine ⟨?_, ?_, ?_, ?_, ?_, ?_, ?_, ?_⟩ <;> (simp only [Issues, Fetches]; decide +kernel)

theorem witness_LocksAndReleases_1 :
    (let s : State := { tbl := [(7864320, 3489660929#32)], engs := [(0, { st := .run, len := 1, budget := 1000 })] }
    let e : Nat := 0
    let n : BitVec 6 := 1#6
    let x := s.eng e
    Issues s e (.lock e n .ok) ∧
    (s.lock n.toNat).owner = none ∧
    x.seqId = none) ∧
    (let s : State := { tbl := [(7864320, 3489660929#32)], engs := [(0, { st := .run, len := 1, budget := 1000, seqId := (some 7) })], seqs := [(7, { id := 7, engine := 0, locks := [], writes := [], outh := false, ph := .opened })] }
    let e : Nat := 0
    let n : BitVec 6 := 1#6
    let x := s.eng e
    Issues s e (.lock e n .ok) ∧ (let id : Nat := 7
    let q : LSeq := { id := 7, engine := 0, locks := [], writes := [], outh := false, ph := .opened }
    (s.lock n.toNat).owner = none ∧
    x.seqId = some id ∧
    s.lseq id = some q ∧
    q.id = id ∧
    (∀ l ∈ q.locks, l < n.toNat))) ∧
    (let s : State := { tbl := [(7864320, 3489660929#32)], engs := [(0, { st := .run, len := 1, budget := 1000 })], locks := [(1, { owner := (some 9) })] }
    let e : Nat := 0
    let n : BitVec 6 := 1#6
    let x := s.eng e
    Issues s e (.lock e n .ok) ∧
    (s.lock n.toNat).owner ≠ none ∧
    x.seqId = none) ∧
    (let s : State := { tbl := [(7864320, 3556769792#32)], engs := [(0, { st := .run, len := 1, budget := 1000 })] }
    let e : Nat := 0
    Issues s e (.rel e .ok) ∧
    s.openSeq e = none) ∧
    (let s : State := { tbl := [(7864320, 3556769792#32)], engs := [(0, { st := .run, len := 1, budget := 1000, seqId := (some 7) })], seqs := [(7, { id := 7, engine := 0, locks := [], writes := [], outh := false, ph := .opened })] }
    let e : Nat := 0
    let x := s.eng e
    Issues s e (.rel e .ok) ∧ (let q : LSeq := { id := 7, engine := 0, locks := [], writes := [], outh := false, ph := .opened }
    s.openSeq e = some q ∧
    x.seqId = some q.id ∧
    q.engine = e ∧
    s.engOcc e = none ∧
    q.writes = [])) ∧
    (let s : State := { tbl := [(7864320, 3556769792#32)], engs := [(0, { st := .run, len := 1, budget := 1000, seqId := (some 7) })], seqs := [(7, { id := 7, engine := 0, locks := [], writes := [(4#32, 5#32)], outh := false, ph := .opened })] }
    let e : Nat := 0
    let x := s.eng e
    Issues s e (.rel e .ok) ∧ (let q : LSeq := { id := 7, engine := 0, locks := [], writes := [(4#32, 5#32)], outh := false, ph := .opened }
    s.openSeq e = some q ∧
    x.seqId = some q.id ∧
    s.engOcc e = none ∧
    q.writes ≠ [] ∧
    (s.cluster (e / 16)).used < 16 ∧
    (s.cluster (e / 16)).stalled = [])) ∧
    (let s : State := { tbl := [(7864420, 3556769792#32)], engs := [(0, { st := .run, pc := 100, entry := 90, len := 60, budget := 1000, seqId := (some 6000) })], clusters := [(0, { queue := [(.plain 1 0x00000004#32 0x00000005#32), (.plain 1 0x00000004#32 0x00000005#32), (.plain 1 0x00000004#32 0x00000005#32), (.plain 1 0x00000004#32 0x00000005#32), (.plain 1 0x00000004#32 0x00000005#32), (.plain 1 0x00000004#32 0x00000005#32), (.plain 1 0x00000004#32 0x00000005#32), (.plain 1 0x00000004#32 0x00000005#32), (.plain 1 0x00000004#32 0x00000005#32), (.plain 1 0x00000004#32 0x00000005#32), (.plain 1 0x00000004#32 0x00000005#32), (.plain 1 0x00000004#32 0x00000005#32), (.plain 1 0x00000004#32 0x00000005#32), (.plain 1 0x00000004#32 0x00000005#32), (.plain 1 0x00000004#32 0x00000005#32), (.plain 1 0x00000004#32 0x00000005#32)] })], seqs := [(6000, { id := 6000, engine := 0, locks := [], writes := [(4#32, 5#32)], outh := true, ph := .opened })] }
    let e : Nat := 0
    let x := s.eng e
    Issues s e (.rel e .ok) ∧ (let q : LSeq := { id := 6000, engine := 0, locks := [], writes := [(4#32, 5#32)], outh := true, ph := .opened }
    s.openSeq e = some q ∧
    x.seqId = some q.id ∧
    s.engOcc e = none ∧
    q.writes ≠ [] ∧
    (16 ≤ (s.cluster (e / 16)).used ∨ (s.cluster (e / 16)).stalled ≠ []))) ∧
    (let s : State := { tbl := [(7864420, 3556769792#32)], occs := [(50, { id := 50, ctx := 1, tgt := 100#64, dir := .fwd, either := false, raised := 0, late := false })], engs := [(3, { st := .run, pc := 100, entry := 90, len := 60, budget := 1000, occ := (some 50), seqId := (some 6000) })], seqs := [(6000, { id := 6000, engine := 2, locks := [], writes := [(4#32, 5#32)], outh := false, ph := .opened })] }
    let e : Nat := 3
    let x := s.eng e
    Issues s e (.rel e .ok) ∧ (let q : LSeq := { id := 6000, engine := 2, locks := [], writes := [(4#32, 5#32)], outh := false, ph := .opened }
    let o : Occ := { id := 50, ctx := 1, tgt := 100#64, dir := .fwd, either := false, raised := 0, late := false }
    s.openSeq e = some q ∧
    x.seqId = some q.id ∧
    s.engOcc e = some o ∧
    mFind s.occs o.id = some o ∧
    q.writes ≠ [] ∧
    q.outh = false ∧
    (s.cluster (e / 16)).used < 16 ∧
    (s.cluster (e / 16)).stalled = [])) := by
  refine ⟨?_, ?_, ?_, ?_, ?_, ?_, ?_, ?_⟩ <;> (simp only [Issues, Fetches]; decide +kernel)

theorem witness_LocksAndReleases_2 :
    (let s : State := { tbl := [(7864420, 3556769792#32)], occs := [(50, { id := 50, ctx := 1, tgt := 100#64, dir := .fwd, either := false, raised := 0, late := true })], engs := [(0, { st := .run, pc := 100, entry := 90, len := 60, budget := 1000, occ := (some 50), seqId := (some 6000) })], seqs := [(6000, { id := 6000, engine := 0, locks := [], writes := [(4#32, 5#32)], outh := true, ph := .opened })] }
    let e : Nat := 0
    let x := s.eng e
    Issues s e (.rel e .ok) ∧ (let q : LSeq := { id := 6000, engine := 0, locks := [], writes := [(4#32, 5#32)], outh := true, ph := .opened }
    let o : Occ := { id := 50, ctx := 1, tgt := 100#64, dir := .fwd, either := false, raised := 0, late := true }
    s.openSeq e = some q ∧
    x.seqId = some q.id ∧
    s.engOcc e = some o ∧
    mFind s.occs o.id = some o ∧
    q.writes ≠ [] ∧
    q.outh = true ∧
    o.st = .launched ∧
    s.heldBy e < 8)) ∧
    (let s : State := { tbl := [(7864420, 3556769792#32)], occs := [(50, { id := 50, ctx := 1, tgt := 100#64, dir := .fwd, either := false, raised := 0, late := true, st := .ordered })], engs := [(2, { st := .run, pc := 100, entry := 90, len := 60, budget := 1000, occ := (some 50), seqId := (some 6000) })], seqs := [(6000, { id := 6000, engine := 2, locks := [], writes := [(4#32, 5#32)], outh := true, ph := .opened })] }
    let e : Nat := 2
    let x := s.eng e
    Issues s e (.rel e .ok) ∧ (let q : LSeq := { id := 6000, engine := 2, locks := [], writes := [(4#32, 5#32)], outh := true, ph := .opened }
    let o : Occ := { id := 50, ctx := 1, tgt := 100#64, dir := .fwd, either := false, raised := 0, late := true, st := .ordered }
    s.openSeq e = some q ∧
    x.seqId = some q.id ∧
    s.engOcc e = some o ∧
    mFind s.occs o.id = some o ∧
    q.writes ≠ [] ∧
    q.outh = true ∧
    o.st = .ordered ∧
    (s.cluster (e / 16)).used < 16 ∧
    (s.cluster (e / 16)).stalled = [])) ∧
    (let s : State := { tbl := [(7864420, 3556769792#32)], occs := [(50, { id := 50, ctx := 1, tgt := 100#64, dir := .fwd, either := false, raised := 0, late := true, st := .squashed })], engs := [(2, { st := .run, pc := 100, entry := 90, len := 60, budget := 1000, occ := (some 50), seqId := (some 6000) })], seqs := [(6000, { id := 6000, engine := 2, locks := [], writes := [(4#32, 5#32)], outh := true, ph := .opened })] }
    let e : Nat := 2
    let x := s.eng e
    Issues s e (.rel e .ok) ∧ (let q : LSeq := { id := 6000, engine := 2, locks := [], writes := [(4#32, 5#32)], outh := true, ph := .opened }
    let o : Occ := { id := 50, ctx := 1, tgt := 100#64, dir := .fwd, either := false, raised := 0, late := true, st := .squashed }
    s.openSeq e = some q ∧
    x.seqId = some q.id ∧
    s.engOcc e = some o ∧
    mFind s.occs o.id = some o ∧
    q.writes ≠ [] ∧
    q.outh = true ∧
    o.st = .squashed ∧
    q.engine = e)) := by
  refine ⟨?_, ?_, ?_⟩ <;> (simp only [Issues, Fetches]; decide +kernel)

theorem witness_RaisesAndEnds :
    (let s : State := { tbl := [(7864320, 3758096384#32)], engs := [(0, { st := .run, len := 1, budget := 1000 })] }
    let e : Nat := 0
    let d : BitVec 5 := 0#5
    let a : BitVec 5 := 0#5
    Issues s e (.raise e d a .ok)) ∧
    (let s : State := { rank := 1000000, engs := [(0, { raiseAt := (some (999999, (7#32, 2#5))) })], ldr := { phase := .opened } }
    let e : Nat := 0
    let d : BitVec 5 := 2#5
    let t : Nat := 999999
    let pay : BitVec 32 := 7#32
    e < 512 ∧
    (s.eng e).raiseAt = some (t, pay, d) ∧
    t ≤ s.rank ∧
    s.serving = true ∧
    (s.src (0x5800 + e)).st ≠ .completing ∧
    (s.src (0x5800 + e)).q.length < 4) ∧
    (let s : State := { rank := 1000000, srcs := [(22530, { st := .completing, q := [{}] })], engs := [(2, { raiseAt := (some (999999, (7#32, 0#5))) })], ldr := { phase := .opened } }
    let e : Nat := 2
    let d : BitVec 5 := 0#5
    let t : Nat := 999999
    let pay : BitVec 32 := 7#32
    e < 512 ∧
    (s.eng e).raiseAt = some (t, pay, d) ∧
    t ≤ s.rank ∧
    s.serving = true ∧ (let i : Inst := {}
    let rest : List Inst := []
    (s.src (0x5800 + e)).st = .completing ∧
    (s.src (0x5800 + e)).kept = false ∧
    s.heldBack (0x5800 + e) = false ∧
    (s.src (0x5800 + e)).since + 2 ≤ s.rank ∧
    (s.src (0x5800 + e)).q = i :: rest ∧
    rest.length < 4)) ∧
    (let s : State := { srcs := [(22528, { q := [{}, {}, {}, {}] })], engs := [(0, { raiseAt := (some (0, (5#32, 1#5))) })], ldr := { phase := .opened } }
    let e : Nat := 0
    let d : BitVec 5 := 1#5
    let t : Nat := 0
    let pay : BitVec 32 := 5#32
    e < 512 ∧
    (s.eng e).raiseAt = some (t, pay, d) ∧
    t ≤ s.rank ∧
    s.serving = true ∧
    (s.src (0x5800 + e)).st ≠ .completing ∧
    4 ≤ (s.src (0x5800 + e)).q.length) ∧
    (let s : State := { tbl := [(7864320, 4227858432#32)], engs := [(0, { st := .run, len := 1, budget := 1000 })] }
    let e : Nat := 0
    let x := s.eng e
    let n := s.cycles e
    Issues s e (.endR e .ok) ∧
    x.sig + wd x.pc = x.dsig ∧
    n < 65536) := by
  refine ⟨?_, ?_, ?_, ?_, ?_⟩
  · simp only [Issues, Fetches]; decide +kernel
  · decide +kernel
  · decide +kernel
  · decide +kernel
  · simp only [Issues, Fetches]; decide +kernel

theorem witness_InstructionFaults_1 :
    (let s : State := { engs := [(0, { st := .run, raiseAt := (some (0, (5#32, 1#5))) })] }
    let e : Nat := 0
    let d : BitVec 5 := 0#5
    let a : BitVec 5 := 0#5
    let b : BitVec 5 := 0#5
    let k : BitVec 5 := 0#5
    let imm : BitVec 16 := 0#16
    let o : BitVec 8 := 1#8
    let off : BitVec 11 := 0#11
    let rnd : BitVec 2 := 0#2
    let n16 : Bool := true
    let body : BitVec 8 := 1#8
    let bound : BitVec 8 := 1#8
    let n : BitVec 6 := 0#6
    let chk : Chk := .ok
    s.snt.warmDue = false ∧
    s.issuing e = true ∧
    ∃ i ∈ (reflexRows e d a b k imm o off rnd n16 body bound n chk), s.raiseDue e = true) ∧
    (let s : State := { engs := [(0, { st := .run })] }
    let e : Nat := 0
    let d : BitVec 5 := 0#5
    let a : BitVec 5 := 0#5
    let b : BitVec 5 := 0#5
    let k : BitVec 5 := 0#5
    let imm : BitVec 16 := 0#16
    let o : BitVec 8 := 1#8
    let off : BitVec 11 := 0#11
    let rnd : BitVec 2 := 0#2
    let n16 : Bool := true
    let body : BitVec 8 := 1#8
    let bound : BitVec 8 := 1#8
    let n : BitVec 6 := 0#6
    let chk : Chk := .ok
    s.snt.warmDue = false ∧
    s.issuing e = true ∧ (let x := s.eng e
    let c := s.cycles e
    let timely := c < x.budget ∨ c = x.budget ∧ s.fetched e = endWord
    ∃ i ∈ (reflexRows e d a b k imm o off rnd n16 body bound n chk), Plain s e ∧
    s.raiseDue e = false ∧
    s.seqsOf e = [] ∧
    ¬timely)) ∧
    (let s : State := { engs := [(0, { st := .run, budget := 1000 })] }
    let e : Nat := 0
    let d : BitVec 5 := 0#5
    let a : BitVec 5 := 0#5
    let b : BitVec 5 := 0#5
    let k : BitVec 5 := 0#5
    let imm : BitVec 16 := 0#16
    let o : BitVec 8 := 1#8
    let off : BitVec 11 := 0#11
    let rnd : BitVec 2 := 0#2
    let n16 : Bool := true
    let body : BitVec 8 := 1#8
    let bound : BitVec 8 := 1#8
    let n : BitVec 6 := 0#6
    let chk : Chk := .ok
    s.snt.warmDue = false ∧
    s.issuing e = true ∧ (let x := s.eng e
    let c := s.cycles e
    let timely := c < x.budget ∨ c = x.budget ∧ s.fetched e = endWord
    let within := x.entry ≤ x.pc ∧ x.pc < x.entry + x.len
    ∃ i ∈ (reflexRows e d a b k imm o off rnd n16 body bound n chk), Plain s e ∧
    s.raiseDue e = false ∧
    s.seqsOf e = [] ∧
    timely ∧
    ¬within)) ∧
    (let s : State := { engs := [(0, { st := .run, len := 1, budget := 1000 })] }
    let e : Nat := 0
    let d : BitVec 5 := 0#5
    let a : BitVec 5 := 0#5
    let b : BitVec 5 := 0#5
    let k : BitVec 5 := 0#5
    let imm : BitVec 16 := 0#16
    let o : BitVec 8 := 1#8
    let off : BitVec 11 := 0#11
    let rnd : BitVec 2 := 0#2
    let n16 : Bool := true
    let body : BitVec 8 := 1#8
    let bound : BitVec 8 := 1#8
    let n : BitVec 6 := 0#6
    let chk : Chk := .eccFetch
    s.snt.warmDue = false ∧
    s.issuing e = true ∧ (let x := s.eng e
    let c := s.cycles e
    let timely := c < x.budget ∨ c = x.budget ∧ s.fetched e = endWord
    let within := x.entry ≤ x.pc ∧ x.pc < x.entry + x.len
    ∃ i ∈ (reflexRows e d a b k imm o off rnd n16 body bound n chk), Plain s e ∧
    s.raiseDue e = false ∧
    s.seqsOf e = [] ∧
    timely ∧
    within ∧
    chk = .eccFetch)) ∧
    (let s : State := { engs := [(0, { st := .run, len := 1, budget := 1000 })] }
    let e : Nat := 0
    let d : BitVec 5 := 0#5
    let a : BitVec 5 := 0#5
    let b : BitVec 5 := 0#5
    let k : BitVec 5 := 0#5
    let imm : BitVec 16 := 0#16
    let o : BitVec 8 := 1#8
    let off : BitVec 11 := 0#11
    let rnd : BitVec 2 := 0#2
    let n16 : Bool := true
    let body : BitVec 8 := 1#8
    let bound : BitVec 8 := 1#8
    let n : BitVec 6 := 0#6
    let chk : Chk := .ok
    s.snt.warmDue = false ∧
    s.issuing e = true ∧ (let x := s.eng e
    let c := s.cycles e
    let timely := c < x.budget ∨ c = x.budget ∧ s.fetched e = endWord
    let within := x.entry ≤ x.pc ∧ x.pc < x.entry + x.len
    ∃ i ∈ (reflexRows e d a b k imm o off rnd n16 body bound n chk), Plain s e ∧
    s.raiseDue e = false ∧
    s.seqsOf e = [] ∧
    timely ∧
    within ∧
    chk ≠ .eccFetch ∧
    readWord e (s.fetched e) = none)) ∧
    (let s : State := { tbl := [(7864320, 3288334593#32)], engs := [(0, { st := .run, len := 1, budget := 1000 })] }
    let e : Nat := 0
    let d : BitVec 5 := 0#5
    let a : BitVec 5 := 0#5
    let b : BitVec 5 := 0#5
    let k : BitVec 5 := 0#5
    let imm : BitVec 16 := 0#16
    let o : BitVec 8 := 1#8
    let off : BitVec 11 := 0#11
    let rnd : BitVec 2 := 0#2
    let n16 : Bool := true
    let body : BitVec 8 := 1#8
    let bound : BitVec 8 := 1#8
    let n : BitVec 6 := 0#6
    let chk : Chk := .ok
    s.snt.warmDue = false ∧
    s.issuing e = true ∧ (let x := s.eng e
    let c := s.cycles e
    let timely := c < x.budget ∨ c = x.budget ∧ s.fetched e = endWord
    let within := x.entry ≤ x.pc ∧ x.pc < x.entry + x.len
    ∃ i ∈ (reflexRows e d a b k imm o off rnd n16 body bound n chk), Plain s e ∧
    s.raiseDue e = false ∧
    s.seqsOf e = [] ∧
    timely ∧
    within ∧
    chk ≠ .eccFetch ∧
    (readWord e (s.fetched e)).any (s.misplaced e) = true)) ∧
    (let s : State := { edge := { issues := [(.nop 0 .ok)] }, engs := [(0, { st := .run, raiseAt := (some (0, (5#32, 1#5))) })] }
    let e : Nat := 0
    let d : BitVec 5 := 0#5
    let a : BitVec 5 := 0#5
    let b : BitVec 5 := 0#5
    let k : BitVec 5 := 0#5
    let imm : BitVec 16 := 0#16
    let o : BitVec 8 := 1#8
    let off : BitVec 11 := 0#11
    let rnd : BitVec 2 := 0#2
    let n16 : Bool := true
    let body : BitVec 8 := 1#8
    let bound : BitVec 8 := 1#8
    let n : BitVec 6 := 0#6
    let i : Instr := (.nop 0 .ok)
    s.snt.warmDue = false ∧
    s.issuing e = true ∧
    (s.eng e).raiseAt.isSome = true ∧
    s.raiseDue e = true ∧
    s.engs = [(e, s.eng e)] ∧
    s.edge.issues = [i] ∧
    i ∈ reflexRows e d a b k imm o off rnd n16 body bound n .ok) ∧
    (let s : State := {}
    let e : Nat := 0
    let a : BitVec 5 := 0#5
    let body : BitVec 8 := 1#8
    let bound : BitVec 8 := 1#8
    let chk : Chk := .ok
    ∃ i ∈ (([.loop e body bound chk, .loopr e a body bound chk] : List Instr)), True) := by
  refine ⟨?_, ?_, ?_, ?_, ?_, ?_, ?_, ?_⟩
  · decide +kernel
  · simp only [Plain]; decide +kernel
  · simp only [Plain]; decide +kernel
  · simp only [Plain]; decide +kernel
  · simp only [Plain]; decide +kernel
  · simp only [Plain]; decide +kernel
  · decide +kernel
  · decide +kernel

theorem witness_InstructionFaults_2 :
    (let s : State := {}
    let e : Nat := 0
    let n : BitVec 6 := 0#6
    let chk : Chk := .ok
    ∃ i ∈ (([.lock e n chk, .rel e chk] : List Instr)), True) ∧
    (let s : State := { tbl := [(7864320, 2684354560#32)], engs := [(0, { st := .run, len := 1, budget := 1000 })] }
    let e : Nat := 0
    let d : BitVec 5 := 0#5
    let a : BitVec 5 := 0#5
    let o : BitVec 8 := 0#8
    Plain s e ∧
    s.seqsOf e = [] ∧ (let x := s.eng e
    let far := (s.wreg e a + o.setWidth 32).toNat
    ∃ p ∈ (([(fun c => .lds e d o c, o.toNat), (fun c => .ldsx e d a o c, far), (fun c => .sts e d o c, o.toNat),
             (fun c => .stsx e d a o c, far)] : List ((Chk → Instr) × Nat))), Fetches s e (p.1 .ok) ∧
    (x.slotv = false ∨ 255 < p.2))) ∧
    (let s : State := { tbl := [(7864320, 2684354560#32)], engs := [(0, { st := .run, len := 1, budget := 1000, slotv := true })] }
    let e : Nat := 0
    let d : BitVec 5 := 0#5
    let a : BitVec 5 := 0#5
    let o : BitVec 8 := 0#8
    Plain s e ∧
    s.seqsOf e = [] ∧
    ∃ p ∈ (([fun c => .lds e d o c, fun c => .ldsx e d a o c] : List (Chk → Instr))), Issues s e (p .ok)) ∧
    (let s : State := { tbl := [(7864320, 134217728#32)], engs := [(0, { st := .run, len := 1, budget := 1000 })] }
    let e : Nat := 0
    let d : BitVec 5 := 0#5
    let a : BitVec 5 := 0#5
    let b : BitVec 5 := 0#5
    let k : BitVec 5 := 0#5
    let imm : BitVec 16 := 0#16
    let o : BitVec 8 := 1#8
    Plain s e ∧
    s.seqsOf e = [] ∧
    ∃ p ∈ (([fun c => .add e d a b c, fun c => .sub e d a b c, fun c => .adds e d a b c, fun c => .subs e d a b c, fun c => .abs e d a c,
             fun c => .addi e d a imm c, fun c => .addis e d a imm c, fun c => .accld e a k c, fun c => .accadd e a k c,
             fun c => .stsx e d a o c] : List (Chk → Instr))), Issues s e (p .ok)) ∧
    (let s : State := { tbl := [(7864320, 2952790016#32)], engs := [(0, { st := .run, len := 1, budget := 1000 })] }
    let e : Nat := 0
    let d : BitVec 5 := 0#5
    let a : BitVec 5 := 0#5
    let imm : BitVec 16 := 0#16
    Plain s e ∧
    s.seqsOf e = [] ∧
    ∃ p ∈ (([fun c => .out e d a imm c, fun c => .outh e d a imm c] : List (Chk → Instr))), Issues s e (p .ok) ∧
    (s.cluster (e / 16)).used < 16 ∧
    (s.cluster (e / 16)).stalled = []) ∧
    (let s : State := { tbl := [(7864320, 2214592512#32)], engs := [(0, { st := .run, len := 1, budget := 1000 })] }
    let e : Nat := 0
    let d : BitVec 5 := 0#5
    let a : BitVec 5 := 0#5
    let b : BitVec 5 := 0#5
    let k : BitVec 5 := 0#5
    let o : BitVec 8 := 1#8
    let rnd : BitVec 2 := 0#2
    let n16 : Bool := true
    Plain s e ∧
    s.seqsOf e = [] ∧
    ∃ p ∈ (([(fun c => .mul e d a b k rnd c, 1), (fun c => .mac e a b c, 1), (fun c => .msu e a b c, 1), (fun c => .ldsx e d a o c, 1),
             (fun c => .accrd e d k rnd n16 c, 2)] : List ((Chk → Instr) × Nat))), Issues s e (p.1 .ok)) ∧
    (let s : State := { tbl := [(7864320, 4227858432#32)], engs := [(0, { st := .run, sig := 1#32, len := 1, budget := 1000 })] }
    let e : Nat := 0
    Plain s e ∧
    s.seqsOf e = [] ∧ (let x := s.eng e
    Issues s e (.endR e .ok) ∧
    x.sig + wd x.pc ≠ x.dsig)) ∧
    (let s : State := { engs := [(0, { faultAt := (some (0, (1, false))) })] }
    let e : Nat := 0
    Plain s e ∧
    s.seqsOf e = [] ∧ (let x := s.eng e
    let t : Nat := 0
    let r : Nat := 1
    x.faultAt = some (t, r, false) ∧
    t ≤ s.eng2 ∧
    s.engs = [(e, x)])) ∧
    (let s : State := { tbl := [(7864320, 3489660928#32)], engs := [(0, { st := .run, len := 1, budget := 1000, seqId := (some 7) })], seqs := [(7, { id := 7, engine := 0, locks := [0], writes := [], outh := false, ph := .opened })] }
    let e : Nat := 0
    let n : BitVec 6 := 0#6
    let q : LSeq := { id := 7, engine := 0, locks := [0], writes := [], outh := false, ph := .opened }
    Plain s e ∧
    s.openSeq e = some q ∧
    (s.eng e).seqId = some q.id ∧
    s.seqsOf e = [q] ∧
    q.ph = .opened ∧
    q.engine = e ∧
    s.seqCtx q = none ∧
    Issues s e (.lock e n .ok) ∧
    (∃ l ∈ q.locks, n.toNat ≤ l)) ∧
    (let s : State := { regs := [(7168, 1#32)], tbl := [(7864320, 2952790016#32), (8912898, 4294967295#32), (8912900, 1#32)], engs := [(0, { st := .run, len := 1, budget := 1000, seqId := (some 7) })], seqs := [(7, { id := 7, engine := 0, locks := [], writes := [(4#32, 5#32), (4#32, 5#32), (4#32, 5#32), (4#32, 5#32), (4#32, 5#32), (4#32, 5#32), (4#32, 5#32), (4#32, 5#32), (4#32, 5#32), (4#32, 5#32), (4#32, 5#32), (4#32, 5#32), (4#32, 5#32), (4#32, 5#32), (4#32, 5#32), (4#32, 5#32), (4#32, 5#32), (4#32, 5#32), (4#32, 5#32), (4#32, 5#32), (4#32, 5#32), (4#32, 5#32), (4#32, 5#32), (4#32, 5#32), (4#32, 5#32), (4#32, 5#32), (4#32, 5#32), (4#32, 5#32), (4#32, 5#32), (4#32, 5#32), (4#32, 5#32), (4#32, 5#32)], outh := false, ph := .opened })], ldr := { phase := .opened } }
    let e : Nat := 0
    let r : BitVec 5 := 0#5
    let a : BitVec 5 := 0#5
    let imm : BitVec 16 := 0#16
    let q : LSeq := { id := 7, engine := 0, locks := [], writes := [(4#32, 5#32), (4#32, 5#32), (4#32, 5#32), (4#32, 5#32), (4#32, 5#32), (4#32, 5#32), (4#32, 5#32), (4#32, 5#32), (4#32, 5#32), (4#32, 5#32), (4#32, 5#32), (4#32, 5#32), (4#32, 5#32), (4#32, 5#32), (4#32, 5#32), (4#32, 5#32), (4#32, 5#32), (4#32, 5#32), (4#32, 5#32), (4#32, 5#32), (4#32, 5#32), (4#32, 5#32), (4#32, 5#32), (4#32, 5#32), (4#32, 5#32), (4#32, 5#32), (4#32, 5#32), (4#32, 5#32), (4#32, 5#32), (4#32, 5#32), (4#32, 5#32), (4#32, 5#32)], outh := false, ph := .opened }
    Plain s e ∧
    s.openSeq e = some q ∧
    (s.eng e).seqId = some q.id ∧
    s.seqsOf e = [q] ∧
    q.ph = .opened ∧
    q.engine = e ∧
    s.seqCtx q = none ∧ (let to_ := (s.wreg e a &&& 0xFFFFFFFC#32) + (imm.signExtend 32 <<< 2)
    ∃ i ∈ (([.out e r a imm .ok, .outh e r a imm .ok] : List Instr)), Issues s e i ∧
    s.outPass e to_ = true ∧
    q.writes.length = 32)) := by
  refine ⟨?_, ?_, ?_, ?_, ?_, ?_, ?_, ?_, ?_, ?_⟩
  · decide +kernel
  · simp only [Fetches, Plain]; decide +kernel
  · simp only [Issues, Fetches, Plain]; decide +kernel
  · simp only [Issues, Fetches, Plain]; decide +kernel
  · simp only [Issues, Fetches, Plain]; decide +kernel
  · simp only [Issues, Fetches, Plain]; decide +kernel
  · simp only [Issues, Fetches, Plain]; decide +kernel
  · simp only [Plain]; decide +kernel
  · simp only [Issues, Fetches, Plain]; decide +kernel
  · simp only [Issues, Fetches, Plain]; decide +kernel

theorem witness_RaiseAnInstance_1 :
    (let s : State := {}
    s.serving = false) ∧
    (let s : State := { srcs := [(22528, { q := [{}] })], ldr := { phase := .opened } }
    let p : Nat := 22528
    s.serving = true ∧
    (s.src p).q ≠ []) ∧
    (let s : State := { srcs := [(22528, { q := [{}] })], ldr := { phase := .opened } }
    let p : Nat := 22528
    s.serving = true ∧
    (s.src p).q ≠ [] ∧ (let r : Nat := 0
    r ≠ p)) ∧
    (let s : State := { ldr := { phase := .opened } }
    let p : Nat := 0
    s.serving = true ∧
    (s.src p).q = []) ∧
    (let s : State := { ldr := { phase := .opened } }
    let p : Nat := 0
    s.serving = true ∧
    (s.src p).q = [] ∧ (let r : Nat := 1
    r ≠ p)) ∧
    (let s : State := { regs := [(1032, 58625#32)], ldr := { phase := .opened } }
    let p : Nat := 1
    s.serving = true ∧
    (s.src p).q = [] ∧
    s.isC0 p = true) ∧
    (let s : State := { ldr := { phase := .opened } }
    let p : Nat := 0
    s.serving = true ∧
    (s.src p).q = [] ∧
    s.isC0 p = false) ∧
    (let s : State := { ldr := { phase := .opened } }
    let p : Nat := 0
    s.serving = true ∧
    (s.src p).q = [] ∧
    s.isC0 p = false ∧
    isCtx p = false) := by
  refine ⟨?_, ?_, ?_, ?_, ?_, ?_, ?_, ?_⟩ <;> decide +kernel

theorem witness_RaiseAnInstance_2 :
    (let s : State := { srcs := [(5, { place := .pipe })] }
    let p : Nat := 5
    (s.src p).place = .pipe) ∧
    (let s : State := { srcs := [(5, { place := .pipe, key := { cls := 3 } })] }
    let p : Nat := 5
    (s.src p).place = .pipe ∧ (let x := s.src p
    2 ≤ x.key.cls ∧
    x.keep.share = none)) ∧
    (let s : State := { srcs := [(5, { place := .pipe })] }
    let p : Nat := 5
    (s.src p).place = .pipe ∧ (let x := s.src p
    (x.key.cls < 2 ∨ x.keep.share ≠ none))) ∧
    (let s : State := { srcs := [(5, { place := .pipe, stage := 5 })] }
    let p : Nat := 5
    (s.src p).place = .pipe ∧ (let x := s.src p
    mWf (fun _ => {}) s.srcs = true ∧
    x.stage = 5 ∧
    x.keep = {})) := by
  refine ⟨?_, ?_, ?_, ?_⟩ <;> decide +kernel

theorem witness_WiredInputs_1 :
    (let s : State := {}
    let n : Nat := 0
    let k : Nat := 0
    let pin : Bool := true
    n < 2048 ∧
    s.domStill 0 = false ∧
    s.snt.warmDue = false ∧ (let c := s.wcfg n
    let lvl := xor pin (bit c 1)
    k < fld c 4 4 + 1 ∧
    lvl ≠ (s.inp n).level)) ∧
    (let s : State := {}
    let n : Nat := 0
    let k : Nat := 1
    let pin : Bool := false
    n < 2048 ∧
    s.domStill 0 = false ∧
    s.snt.warmDue = false ∧ (let c := s.wcfg n
    let lvl := xor pin (bit c 1)
    fld c 4 4 + 1 ≤ k ∧
    lvl = (s.inp n).level)) ∧
    (let s : State := { tbl := [(1048624, 2378140459#32)], ins := [(3, { level := true, meiOn := true })] }
    let n : Nat := 3
    let k : Nat := 3
    let pin : Bool := true
    n < 2048 ∧
    s.domStill 0 = false ∧
    s.snt.warmDue = false ∧ (let c := s.wcfg n
    let lvl := xor pin (bit c 1)
    fld c 4 4 + 1 ≤ k ∧
    lvl ≠ (s.inp n).level ∧
    bit c 0 = true ∧
    (fld c 2 2 = 3 ∨ (fld c 2 2 = 1 ∧ lvl = true) ∨ (fld c 2 2 = 2 ∧ lvl = false)) ∧
    s.meiOver n = false)) ∧
    (let s : State := { tbl := [(1048656, 655373#32)], ldr := { phase := .opened } }
    let n : Nat := 5
    let k : Nat := 1
    let pin : Bool := true
    n < 2048 ∧
    s.domStill 0 = false ∧
    s.snt.warmDue = false ∧ (let c := s.wcfg n
    let lvl := xor pin (bit c 1)
    fld c 4 4 + 1 ≤ k ∧
    lvl ≠ (s.inp n).level ∧
    bit c 0 = true ∧
    (fld c 2 2 = 3 ∨ (fld c 2 2 = 1 ∧ lvl = true) ∨ (fld c 2 2 = 2 ∧ lvl = false)) ∧
    s.meiOver n = true ∧
    fld (s.tw 0x02 n 2) 0 8 = 0 ∧
    s.serving = true ∧
    s.isC0 n = false ∧
    (s.src n).q.length < 15)) ∧
    (let s : State := { tbl := [(1048640, 655373#32)], srcs := [(4, { q := [{}, {}, {}, {}, {}, {}, {}, {}, {}, {}, {}, {}, {}, {}, {}] })] }
    let n : Nat := 4
    let k : Nat := 1
    let pin : Bool := true
    n < 2048 ∧
    s.domStill 0 = false ∧
    s.snt.warmDue = false ∧ (let c := s.wcfg n
    let lvl := xor pin (bit c 1)
    fld c 4 4 + 1 ≤ k ∧
    lvl ≠ (s.inp n).level ∧
    bit c 0 = true ∧
    (fld c 2 2 = 3 ∨ (fld c 2 2 = 1 ∧ lvl = true) ∨ (fld c 2 2 = 2 ∧ lvl = false)) ∧
    s.meiOver n = true ∧
    15 ≤ (s.src n).q.length)) ∧
    (let s : State := { rank := 1000000, tbl := [(1048656, 655373#32)], ins := [(5, { level := true, meiOn := true, coal := true })], ldr := { phase := .opened } }
    let n : Nat := 5
    n < 2048 ∧
    s.domStill 0 = false ∧
    s.snt.warmDue = false ∧ (let c := s.wcfg n
    let x := s.inp n
    x.meiOn = true ∧
    s.meiOver n = true ∧
    bit c 0 = true ∧
    fld c 2 2 = 3 ∧
    x.coal = true ∧
    x.level ≠ x.passLevel ∧
    fld (s.tw 0x02 n 2) 0 8 = 0 ∧
    s.serving = true ∧
    s.isC0 n = false ∧
    (s.src n).q.length < 15)) ∧
    (let s : State := { tbl := [(1048656, 1#32)] }
    let n : Nat := 5
    let k : Nat := 1
    let pin : Bool := true
    n < 2048 ∧
    s.domStill 0 = false ∧
    s.snt.warmDue = false ∧ (let c := s.wcfg n
    let lvl := xor pin (bit c 1)
    fld c 4 4 + 1 ≤ k ∧
    lvl ≠ (s.inp n).level ∧
    fld c 2 2 = 0 ∧
    (lvl = false ∨ bit c 0 = false ∨ (s.src n).q ≠ [] ∨ s.meiOver n = false ∨ (s.inp n).retry = true ∨ s.serving = false))) ∧
    (let s : State := { tbl := [(1048576, 1#32), (1048578, 458757#32)], ldr := { phase := .opened } }
    let n : Nat := 0
    let k : Nat := 1
    let pin : Bool := true
    n < 2048 ∧
    s.domStill 0 = false ∧
    s.snt.warmDue = false ∧ (let c := s.wcfg n
    let lvl := xor pin (bit c 1)
    fld c 4 4 + 1 ≤ k ∧
    lvl ≠ (s.inp n).level ∧
    fld c 2 2 = 0 ∧
    lvl = true ∧
    bit c 0 = true ∧
    (s.src n).q = [] ∧
    s.meiOver n = true ∧
    (s.inp n).retry = false ∧
    s.serving = true ∧
    fld (s.tw 0x02 n 2) 0 8 ≠ 0 ∧
    (s.inp n).tokens = 0)) := by
  refine ⟨?_, ?_, ?_, ?_, ?_, ?_, ?_, ?_⟩ <;> decide +kernel

theorem witness_WiredInputs_2 :
    (let s : State := { tbl := [(1048624, 3#32)], ldr := { phase := .opened } }
    let n : Nat := 3
    let k : Nat := 1
    let pin : Bool := false
    n < 2048 ∧
    s.domStill 0 = false ∧
    s.snt.warmDue = false ∧ (let c := s.wcfg n
    let lvl := xor pin (bit c 1)
    fld c 4 4 + 1 ≤ k ∧
    lvl ≠ (s.inp n).level ∧
    fld c 2 2 = 0 ∧
    lvl = true ∧
    bit c 0 = true ∧
    (s.src n).q = [] ∧
    s.meiOver n = true ∧
    (s.inp n).retry = false ∧
    s.serving = true ∧
    fld (s.tw 0x02 n 2) 0 8 = 0 ∧
    s.isC0 n = false)) ∧
    (let s : State := { tbl := [(1048624, 1#32)], ins := [(3, { meiOn := true })] }
    let n : Nat := 3
    n < 2048 ∧
    s.domStill 0 = false ∧
    s.snt.warmDue = false ∧ (let c := s.wcfg n
    let x := s.inp n
    x.meiOn = true ∧
    s.meiOver n = true ∧
    fld c 2 2 = 0 ∧
    (x.level = false ∨ bit c 0 = false ∨ (s.src n).q ≠ [] ∨ x.retry = true ∨ s.serving = false))) ∧
    (let s : State := { rank := 1000000, tbl := [(1048592, 3831418579#32)], ins := [(1, { level := true, meiOn := true })], ldr := { phase := .opened } }
    let n : Nat := 1
    n < 2048 ∧
    s.domStill 0 = false ∧
    s.snt.warmDue = false ∧ (let c := s.wcfg n
    let x := s.inp n
    x.meiOn = true ∧
    s.meiOver n = true ∧
    fld c 2 2 = 0 ∧
    x.level = true ∧
    bit c 0 = true ∧
    (s.src n).q = [] ∧
    x.retry = false ∧
    s.serving = true ∧
    fld (s.tw 0x02 n 2) 0 8 = 0 ∧
    s.isC0 n = false)) ∧
    (let s : State := { tbl := [(1048608, 655361#32)], ins := [(2, { meiOn := true })] }
    let n : Nat := 2
    n < 2048 ∧
    s.domStill 0 = false ∧
    s.snt.warmDue = false ∧
    s.meiOver n = false) := by
  refine ⟨?_, ?_, ?_, ?_⟩ <;> decide +kernel

theorem witness_TicksAndTokens :
    (let s : State := { rank := 65536 }
    let n : Nat := 0
    n < 2048 ∧
    s.snt.warmDue = false ∧
    s.domStill 0 = false ∧
    s.tickAt + (fld (s.reg 0x0200) 0 20 + 1) ≤ s.rank) ∧
    (let s : State := {}
    let n : Nat := 0
    n < 2048 ∧
    s.snt.warmDue = false ∧ (let x := s.inp n
    let w := s.tw 0x02 n 1
    (fld w 0 24 = 0 ∨ x.level = false))) ∧
    (let s : State := { tbl := [(1048577, 3#32)], ins := [(0, { level := true })] }
    let n : Nat := 0
    n < 2048 ∧
    s.snt.warmDue = false ∧ (let x := s.inp n
    let w := s.tw 0x02 n 1
    x.level = true ∧
    x.stuck = false ∧
    x.stuckCnt + 1 < fld w 0 24)) ∧
    (let s : State := { tbl := [(1048657, 16777219#32)], ins := [(5, { level := true, stuckCnt := 2 })] }
    let n : Nat := 5
    n < 2048 ∧
    s.snt.warmDue = false ∧ (let x := s.inp n
    let w := s.tw 0x02 n 1
    x.level = true ∧
    x.stuck = false ∧
    fld w 0 24 ≠ 0 ∧
    fld w 0 24 ≤ x.stuckCnt + 1)) ∧
    (let s : State := { tbl := [(1048578, 65537#32)], ticks := 1 }
    let n : Nat := 0
    n < 2048 ∧
    s.snt.warmDue = false ∧ (let x := s.inp n
    let t := s.tw 0x02 n 2
    x.retry = false ∧
    fld t 0 8 ≠ 0 ∧
    fld t 16 14 ≠ 0 ∧
    x.refillTick + fld t 16 14 ≤ s.ticks)) ∧
    (let s : State := { tbl := [(1048578, 458757#32)], ticks := 40, ins := [(0, { retry := true })] }
    let n : Nat := 0
    n < 2048 ∧
    s.snt.warmDue = false ∧ (let x := s.inp n
    let t := s.tw 0x02 n 2
    x.retry = true ∧
    x.tokens = 0 ∧
    fld t 0 8 ≠ 0 ∧
    fld t 16 14 ≠ 0 ∧
    x.refillTick + fld t 16 14 ≤ s.ticks ∧
    fld t 8 8 = 0)) ∧
    (let s : State := { tbl := [(1048576, 655361#32), (1048578, 459525#32)], ticks := 40, ins := [(0, { meiOn := true, retry := true })] }
    let n : Nat := 0
    n < 2048 ∧
    s.snt.warmDue = false ∧ (let x := s.inp n
    let t := s.tw 0x02 n 2
    x.retry = true ∧
    x.tokens = 0 ∧
    fld t 0 8 ≠ 0 ∧
    fld t 16 14 ≠ 0 ∧
    x.refillTick + fld t 16 14 ≤ s.ticks ∧
    fld t 8 8 ≠ 0 ∧
    s.meiOver n = false)) ∧
    (let s : State := { tbl := [(1048576, 1#32), (1048578, 459525#32)], ticks := 40, ins := [(0, { level := true, retry := true })], ldr := { phase := .opened } }
    let n : Nat := 0
    n < 2048 ∧
    s.snt.warmDue = false ∧ (let x := s.inp n
    let t := s.tw 0x02 n 2
    x.retry = true ∧
    x.tokens = 0 ∧
    fld t 0 8 ≠ 0 ∧
    fld t 16 14 ≠ 0 ∧
    x.refillTick + fld t 16 14 ≤ s.ticks ∧
    fld t 8 8 ≠ 0 ∧
    s.meiOver n = true ∧
    fld (s.wcfg n) 2 2 = 0 ∧
    bit (s.wcfg n) 0 = true ∧
    x.level = true ∧
    (s.src n).q = [] ∧
    s.serving = true ∧
    s.isC0 n = false)) ∧
    (let s : State := {}
    let n : Nat := 0
    n < 2048 ∧
    s.snt.warmDue = false ∧ (let x := s.inp n
    let t := s.tw 0x02 n 2
    (fld t 0 8 = 0 ∨ fld t 16 14 = 0 ∨ s.ticks < x.refillTick + fld t 16 14))) := by
  refine ⟨?_, ?_, ?_, ?_, ?_, ?_, ?_, ?_, ?_⟩ <;> decide +kernel

theorem witness_WakeAndDirectPath :
    (let s : State := { pwr := { dom := [(0, .off)] } }
    let n : Nat := 0
    s.snt.warmDue = false ∧ (let pin : Bool := true
    n < 64 ∧
    s.domOn 0 = false ∧
    (s.inp n).pin ≠ pin ∧ (let b := n % 32
    let lat := if n < 32 then 0x2854 else 0x2858
    let active := pin ≠ bit (s.reg (if n < 32 then 0x2848 else 0x284C)) b
    (¬active ∨ bit (s.reg (if n < 32 then 0x2840 else 0x2844)) b = false ∨ bit (s.reg lat) b = true)))) ∧
    (let s : State := { regs := [(10304, 255#32)], pwr := { dom := [(0, .off)] } }
    let n : Nat := 0
    s.snt.warmDue = false ∧ (let pin : Bool := true
    n < 64 ∧
    s.domOn 0 = false ∧
    (s.inp n).pin ≠ pin ∧ (let b := n % 32
    let lat := if n < 32 then 0x2854 else 0x2858
    let active := pin ≠ bit (s.reg (if n < 32 then 0x2848 else 0x284C)) b
    active ∧
    bit (s.reg (if n < 32 then 0x2840 else 0x2844)) b = true ∧
    bit (s.reg lat) b = false ∧
    bit (s.reg 0x2830) 3 = false))) ∧
    (let s : State := { regs := [(10288, 8#32), (10304, 686679735#32)], pwr := { dom := [(0, .off)] } }
    let n : Nat := 0
    s.snt.warmDue = false ∧ (let pin : Bool := true
    n < 64 ∧
    s.domOn 0 = false ∧
    (s.inp n).pin ≠ pin ∧ (let b := n % 32
    let lat := if n < 32 then 0x2854 else 0x2858
    let active := pin ≠ bit (s.reg (if n < 32 then 0x2848 else 0x284C)) b
    active ∧
    bit (s.reg (if n < 32 then 0x2840 else 0x2844)) b = true ∧
    bit (s.reg lat) b = false ∧
    bit (s.reg 0x2830) 3 = true ∧
    s.pwr.trans = none ∧
    (∀ q, s.pwr.lastWake = some q → q.at_ ≠ s.slowEdge)))) ∧
    (let s : State := { slowEdge := 1000, regs := [(10288, 40#32), (10304, 64#32)], pwr := { dom := [(0, .off)], trans := (some { ph := .raising, tgt := [], ropen := false, raise := [], acked := [], ask := [], asked := 997, stopped := [], await := [], at_ := 0, next := 0, wake := true, pm := false, cold := false }), lastWake := (some { at_ := 1000, src := 3, pin := (some 7) }) } }
    let n : Nat := 6
    s.snt.warmDue = false ∧ (let pin : Bool := true
    n < 64 ∧
    s.domOn 0 = false ∧
    (s.inp n).pin ≠ pin ∧ (let b := n % 32
    let lat := if n < 32 then 0x2854 else 0x2858
    let active := pin ≠ bit (s.reg (if n < 32 then 0x2848 else 0x284C)) b
    active ∧
    bit (s.reg (if n < 32 then 0x2840 else 0x2844)) b = true ∧
    bit (s.reg lat) b = false ∧
    bit (s.reg 0x2830) 3 = true ∧ (let q : WakeReq := { at_ := 1000, src := 3, pin := (some 7) }
    let m : Trans := { ph := .raising, tgt := [], ropen := false, raise := [], acked := [], ask := [], asked := 997, stopped := [], await := [], at_ := 0, next := 0, wake := true, pm := false, cold := false }
    let k : Nat := 7
    s.pwr.lastWake = some q ∧
    q.at_ = s.slowEdge ∧
    s.pwr.trans = some m ∧
    m.wake = true ∧
    q.src = 3 ∧
    q.pin = some k)))) ∧
    (let s : State := { regs := [(10288, 200#32), (10304, 832991340#32)], pwr := { dom := [(0, .off)], trans := (some { ph := .asking, tgt := [], ropen := false, raise := [], acked := [], ask := [], asked := 997, stopped := [], await := [], at_ := 0, next := 0, wake := false, pm := false, cold := false }) } }
    let n : Nat := 2
    s.snt.warmDue = false ∧ (let pin : Bool := true
    n < 64 ∧
    s.domOn 0 = false ∧
    (s.inp n).pin ≠ pin ∧ (let b := n % 32
    let lat := if n < 32 then 0x2854 else 0x2858
    let active := pin ≠ bit (s.reg (if n < 32 then 0x2848 else 0x284C)) b
    active ∧
    bit (s.reg (if n < 32 then 0x2840 else 0x2844)) b = true ∧
    bit (s.reg lat) b = false ∧
    bit (s.reg 0x2830) 3 = true ∧ (let m : Trans := { ph := .asking, tgt := [], ropen := false, raise := [], acked := [], ask := [], asked := 997, stopped := [], await := [], at_ := 0, next := 0, wake := false, pm := false, cold := false }
    s.pwr.trans = some m ∧
    m.ph = .asking ∧
    s.pwr.warmWait = false ∧
    (∀ q, s.pwr.lastWake = some q → q.at_ ≠ s.slowEdge))))) ∧
    (let s : State := { srcs := [(5, { st := .pending, place := .direct, dst := 1 })], dsts := [(1, { upPin := true })], ldr := { phase := .opened } }
    let t : Nat := 1
    s.snt.warmDue = false ∧ (let p : Nat := 5
    t < 512 ∧
    s.serving = true ∧
    s.domStill 0 = false ∧
    s.dstUp t = true ∧
    (s.dst t).c0 = none ∧
    s.c0Next t = some p)) ∧
    (let s : State := { srcs := [(5, { st := .pending, place := .direct })] }
    let t : Nat := 0
    s.snt.warmDue = false ∧ (let p : Nat := 5
    mWf (fun _ => {}) s.srcs = true ∧
    s.c0Next t = some p)) ∧
    (let s : State := { srcs := [(5, { st := .pending, place := .direct })] }
    let t : Nat := 0
    s.snt.warmDue = false ∧ (let p : Nat := 5
    mWf (fun _ => {}) s.srcs = true ∧
    s.c0Next t = some p ∧ (let q : Nat := 5
    (s.src q).st = .pending ∧
    (s.src q).place = .direct ∧
    (s.src q).dst = t))) := by
  refine ⟨?_, ?_, ?_, ?_, ?_, ?_, ?_, ?_⟩ <;> decide +kernel

theorem witness_Messages :
    (let s : State := { pwr := { dom := [(0, .off)] } }
    let port : Nat := 0
    let addr : BitVec 21 := 0#21
    let data : W64 := 0#64
    let srcid : BitVec 12 := 0#12
    port < 2 ∧
    s.snt.warmDue = false ∧
    ∃ i ∈ ([Instr.doorbell port addr data srcid, .doorbellNp port addr data srcid]), s.domStill 0 = true) ∧
    (let s : State := { fifo := [(0, { port := 0, addr := 0#21, data := 0#64, srcid := 0#12 }), (0, { port := 0, addr := 0#21, data := 0#64, srcid := 0#12 }), (0, { port := 0, addr := 0#21, data := 0#64, srcid := 0#12 }), (0, { port := 0, addr := 0#21, data := 0#64, srcid := 0#12 }), (0, { port := 0, addr := 0#21, data := 0#64, srcid := 0#12 }), (0, { port := 0, addr := 0#21, data := 0#64, srcid := 0#12 }), (0, { port := 0, addr := 0#21, data := 0#64, srcid := 0#12 }), (0, { port := 0, addr := 0#21, data := 0#64, srcid := 0#12 }), (0, { port := 0, addr := 0#21, data := 0#64, srcid := 0#12 }), (0, { port := 0, addr := 0#21, data := 0#64, srcid := 0#12 }), (0, { port := 0, addr := 0#21, data := 0#64, srcid := 0#12 }), (0, { port := 0, addr := 0#21, data := 0#64, srcid := 0#12 }), (0, { port := 0, addr := 0#21, data := 0#64, srcid := 0#12 }), (0, { port := 0, addr := 0#21, data := 0#64, srcid := 0#12 }), (0, { port := 0, addr := 0#21, data := 0#64, srcid := 0#12 }), (0, { port := 0, addr := 0#21, data := 0#64, srcid := 0#12 })] }
    let port : Nat := 0
    let addr : BitVec 21 := 0#21
    let data : W64 := 0#64
    let srcid : BitVec 12 := 0#12
    port < 2 ∧
    s.snt.warmDue = false ∧
    ∃ i ∈ ([Instr.doorbell port addr data srcid, .doorbellNp port addr data srcid]), s.domStill 0 = false ∧
    16 ≤ s.fifoLen port) ∧
    (let s : State := {}
    let port : Nat := 0
    let addr : BitVec 21 := 0#21
    let data : W64 := 0#64
    let srcid : BitVec 12 := 0#12
    port < 2 ∧
    s.snt.warmDue = false ∧
    ∃ i ∈ ([Instr.doorbell port addr data srcid, .doorbellNp port addr data srcid]), s.domStill 0 = false ∧
    s.fifoLen port < 16) ∧
    (let s : State := { regs := [(1536, 1#32)], tbl := [(1572864, 1#32)], fifo := [(0, { port := 0, addr := 1048576#21, data := 0#64, srcid := 0#12 })], ldr := { phase := .opened } }
    let t : Nat := 0
    let port : Nat := 0
    let m : Nat := 0
    let addr : BitVec 21 := 1048576#21
    let data : W64 := 0#64
    let srcid : BitVec 12 := 0#12
    port < 2 ∧ (let b : Bell := { port := port, addr := addr, data := data, srcid := srcid }
    let page := addr.toNat / 4096
    let vsn := nfld data.toNat 32 15
    let c := s.tw 0x03 m 0
    s.fifo = [(t, b)] ∧
    s.serving = true ∧
    bit (s.reg 0x0600) port = true ∧
    (addr.toNat % 4096 = 0 ∨ addr.toNat % 4096 = 8) ∧
    (page = 256 ∧ vsn = m ∧ m < 16384 ∨
               page < 256 ∧ s.tenOn page = true ∧ s.mapSlot page vsn = some (0x0800 + m) ∧ m < 16384 ∧
                 s.tenUsed page < fld (s.tw 0x04 page 0) 0 17) ∧
    bit c 0 = true ∧
    (s.src (0x0800 + m)).q.length < s.qdepth m ∧
    s.poolUsed < 65536)) ∧
    (let s : State := { fifo := [(0, { port := 0, addr := 1048576#21, data := 0#64, srcid := 0#12 })] }
    let t : Nat := 0
    let port : Nat := 0
    let addr : BitVec 21 := 1048576#21
    let data : W64 := 0#64
    let srcid : BitVec 12 := 0#12
    port < 2 ∧ (let b : Bell := { port := port, addr := addr, data := data, srcid := srcid }
    s.fifo = [(t, b)] ∧
    (s.serving = false ∨ bit (s.reg 0x0600) port = false))) ∧
    (let s : State := { regs := [(1536, 1#32)], fifo := [(0, { port := 0, addr := 1#21, data := 0#64, srcid := 0#12 })], ldr := { phase := .opened } }
    let t : Nat := 0
    let port : Nat := 0
    let addr : BitVec 21 := 1#21
    let data : W64 := 0#64
    let srcid : BitVec 12 := 0#12
    port < 2 ∧ (let b : Bell := { port := port, addr := addr, data := data, srcid := srcid }
    let page := addr.toNat / 4096
    s.fifo = [(t, b)] ∧
    s.serving = true ∧
    bit (s.reg 0x0600) port = true ∧
    (¬(addr.toNat % 4096 = 0 ∨ addr.toNat % 4096 = 8) ∨ 256 < page))) ∧
    (let s : State := { fifo := [(0, { port := 0, addr := 1048576#21, data := 0#64, srcid := 0#12, src := (some 6) })] }
    let t : Nat := 0
    let b : Bell := { port := 0, addr := 1048576#21, data := 0#64, srcid := 0#12, src := (some 6) }
    let rest : List (Nat × Bell) := []
    s.fifo = (t, b) :: rest ∧
    (∀ x ∈ s.fifo, x.2.src ≠ none)) ∧
    (let s : State := { rq := [(0, [{ dest := 0#12, data := 1#64 }])] }
    let port : Nat := 0
    let m : CMsg := { dest := 0#12, data := 1#64 }
    let rest : List CMsg := []
    port < 2 ∧
    s.snt.warmDue = false ∧
    s.domStill 0 = false ∧
    s.rqOf port = m :: rest) := by
  refine ⟨?_, ?_, ?_, ?_, ?_, ?_, ?_, ?_⟩ <;> decide +kernel

theorem witness_Insertions :
    (let s : State := { dsts := [(0, { best := (some { stamp := 3#24 }) })] }
    let d : Nat := 0
    let p : Nat := 0
    let y := s.dst d
    let k := (s.src p).key
    let behind := ∃ b, y.best = some b ∧ moreUrgent y.stamp b k = true
    behind) ∧
    (let s : State := {}
    let d : Nat := 0
    let p : Nat := 0
    let y := s.dst d
    let k := (s.src p).key
    let behind := ∃ b, y.best = some b ∧ moreUrgent y.stamp b k = true
    let full := 64 ≤ y.heap.length ∨ (2 ≤ k.cls ∧ 60 ≤ (y.heap.filter fun r => decide (2 ≤ (s.src r).key.cls)).length)
    ¬behind ∧
    ¬full) ∧
    (let s : State := { srcs := [(148, { key := { psn := 148 } })], dsts := [(0, { heap := [100, 101, 102, 103, 104, 105, 106, 107, 108, 109, 110, 111, 112, 113, 114, 115, 116, 117, 118, 119, 120, 121, 122, 123, 124, 125, 126, 127, 128, 129, 130, 131, 132, 133, 134, 135, 136, 137, 138, 139, 140, 141, 142, 143, 144, 145, 146, 147, 148, 149, 150, 151, 152, 153, 154, 155, 156, 157, 158, 159, 160, 161, 162, 163] })] }
    let d : Nat := 0
    let p : Nat := 0
    let y := s.dst d
    let k := (s.src p).key
    let behind := ∃ b, y.best = some b ∧ moreUrgent y.stamp b k = true
    let full := 64 ≤ y.heap.length ∨ (2 ≤ k.cls ∧ 60 ≤ (y.heap.filter fun r => decide (2 ≤ (s.src r).key.cls)).length)
    let q : Nat := 148
    ¬behind ∧
    full ∧
    p ∉ y.heap ∧
    s.leastUrgent y.stamp y.heap = some q ∧
    moreUrgent y.stamp k (s.src q).key = true) ∧
    (let s : State := { dsts := [(1, { heap := [200, 201, 202, 203, 204, 205, 206, 207, 208, 209, 210, 211, 212, 213, 214, 215, 216, 217, 218, 219, 220, 221, 222, 223, 224, 225, 226, 227, 228, 229, 230, 231, 232, 233, 234, 235, 236, 237, 238, 239, 240, 241, 242, 243, 244, 245, 246, 247, 248, 249, 250, 251, 252, 253, 254, 255, 256, 257, 258, 259, 260, 261, 262, 263] })] }
    let d : Nat := 1
    let p : Nat := 0
    let y := s.dst d
    let k := (s.src p).key
    let behind := ∃ b, y.best = some b ∧ moreUrgent y.stamp b k = true
    let full := 64 ≤ y.heap.length ∨ (2 ≤ k.cls ∧ 60 ≤ (y.heap.filter fun r => decide (2 ≤ (s.src r).key.cls)).length)
    let q : Nat := 200
    ¬behind ∧
    full ∧
    p ∉ y.heap ∧
    s.leastUrgent y.stamp y.heap = some q ∧
    moreUrgent y.stamp k (s.src q).key = false) ∧
    (let s : State := {}
    let b : Nat := 0
    b < 32 ∧
    s.domStill 0 = false ∧
    s.snt.warmDue = false ∧
    ((s.bank b).slotAt = some s.rank ∨ s.chooseSlot b = none)) ∧
    (let s : State := { srcs := [(5, { st := .pending, place := .wait6, key := { cls := 1 } })] }
    let b : Nat := 0
    let p : Nat := 5
    b < 32 ∧
    s.domStill 0 = false ∧
    s.snt.warmDue = false ∧ (let x := s.src p
    x.st = .pending ∧
    x.place = .wait6 ∧
    bankOf x.dst = b ∧
    x.key.cls = 1 ∧
    mWf (fun _ => {}) s.srcs = true)) ∧
    (let s : State := { srcs := [(5, { st := .pending, place := .wait6 })] }
    let b : Nat := 0
    let p : Nat := 5
    b < 32 ∧
    s.domStill 0 = false ∧
    s.snt.warmDue = false ∧
    (s.bank b).slotAt ≠ some s.rank ∧
    s.chooseSlot b = some p) ∧
    (let s : State := {}
    let b : Nat := 0
    let p : Nat := 0
    b < 32 ∧
    s.domStill 0 = false ∧
    s.snt.warmDue = false ∧ (let x := s.src p
    let y := s.dst x.dst
    y.best = none ∧
    y.heap.length < 60)) ∧
    (let s : State := {}
    let b : Nat := 0
    let p : Nat := 0
    b < 32 ∧
    s.domStill 0 = false ∧
    s.snt.warmDue = false ∧ (let x := s.src p
    let y := s.dst x.dst
    y.best = none ∧
    y.heap.length < 60 ∧ (let r : Nat := 1
    r ≠ p))) ∧
    (let s : State := {}
    let b : Nat := 0
    let p : Nat := 0
    b < 32 ∧
    s.domStill 0 = false ∧
    s.snt.warmDue = false ∧ (let x := s.src p
    let y := s.dst x.dst
    y.best = none ∧
    y.heap.length < 60 ∧ (let d : Nat := 1
    d ≠ x.dst))) := by
  refine ⟨?_, ?_, ?_, ?_, ?_, ?_, ?_, ?_, ?_, ?_⟩ <;> decide +kernel

theorem witness_DecayAndSweep :
    (let s : State := { rank := 65536 }
    s.domStill 0 = false ∧
    s.snt.warmDue = false ∧
    s.decayAt + 2 ^ s.dexp ≤ s.rank ∧
    mWf (fun _ => 0) s.usage = true) ∧
    (let s : State := {}
    s.domStill 0 = false ∧
    s.snt.warmDue = false ∧
    s.rank < s.decayAt + 2 ^ s.dexp) ∧
    (let s : State := { dsts := [(0, { shelf := [5] })] }
    let b : Nat := 0
    let d : Nat := 0
    s.domStill 0 = false ∧
    s.snt.warmDue = false ∧
    s.nextSweep b = some d ∧
    bankOf d = b) ∧
    (let s : State := { dsts := [(1, { heap := [216, 217, 218, 219, 220, 221, 222, 223, 224, 225, 226, 227, 228, 229, 230, 231, 232, 233, 234, 235, 236, 237, 238, 239, 240, 241, 242, 243, 244, 245, 246, 247, 248, 249, 250, 251, 252, 253, 254, 255, 256, 257, 258, 259, 260, 261, 262, 263], mark := true })] }
    let b : Nat := 0
    let d : Nat := 1
    s.domStill 0 = false ∧
    s.snt.warmDue = false ∧
    d < 576 ∧
    bankOf d = b ∧
    s.nextSweep b = some d ∧
    (s.bank b).sweptAt + (s.dst d).shelf.length ≤ s.rank ∧
    s.swpLo ≤ (s.dst d).heap.length) ∧
    (let s : State := { rank := 1000000, srcs := [(100, {})], dsts := [(0, { shelf := [100] })] }
    let b : Nat := 0
    let d : Nat := 0
    let p : Nat := 100
    s.domStill 0 = false ∧
    s.snt.warmDue = false ∧
    d < 576 ∧
    bankOf d = b ∧
    s.nextSweep b = some d ∧
    (s.bank b).sweptAt + (s.dst d).shelf.length ≤ s.rank ∧
    (s.dst d).heap.length < s.swpLo ∧
    (s.dst d).shelf = [p]) ∧
    (let s : State := {}
    let b : Nat := 0
    let d : Nat := 0
    s.domStill 0 = false ∧
    s.snt.warmDue = false ∧
    d < 576 ∧
    bankOf d = b ∧
    s.nextSweep b ≠ some d ∧
    (s.bank b).sweptAt + (s.dst d).shelf.length ≤ s.rank) ∧
    (let s : State := {}
    let b : Nat := 0
    let d : Nat := 16
    s.domStill 0 = false ∧
    s.snt.warmDue = false ∧
    (bankOf d ≠ b ∨ s.rank < (s.bank b).sweptAt + (s.dst d).shelf.length)) := by
  refine ⟨?_, ?_, ?_, ?_, ?_, ?_, ?_⟩ <;> decide +kernel

theorem witness_SpeculativeOffers :
    (let s : State := { tbl := [(4194304, 1#32)], srcs := [(5, { st := .pending })], dsts := [(0, { heap := [5], upPin := true })] }
    let d : Nat := 0
    let p : Nat := 5
    d < 576 ∧
    p < 0x5A40 ∧
    s.snt.warmDue = false ∧
    (s.dst d).form = none ∧
    (s.dst d).offer = none ∧
    (s.dst d).c0 = none ∧
    (s.dst d).parked = none ∧
    s.head d s.rank = some p ∧
    s.offerOk d (s.src p).key = true ∧
    (s.src p).st = .pending) ∧
    (let s : State := { tbl := [(4194304, 1#32)], srcs := [(5, { st := .pending })], dsts := [(0, { heap := [5], upPin := true })] }
    let d : Nat := 0
    let p : Nat := 5
    d < 576 ∧
    p < 0x5A40 ∧
    s.snt.warmDue = false ∧
    (s.dst d).form = none ∧
    (s.dst d).offer = none ∧
    (s.dst d).c0 = none ∧
    (s.dst d).parked = none ∧
    s.head d s.rank = some p ∧
    s.offerOk d (s.src p).key = true ∧
    (s.src p).st = .pending ∧ (let r : Nat := 0
    r ≠ p)) ∧
    (let s : State := { tbl := [(4194304, 1#32)], srcs := [(5, { st := .pending })], dsts := [(0, { heap := [5], upPin := true })] }
    let d : Nat := 0
    let p : Nat := 5
    d < 576 ∧
    p < 0x5A40 ∧
    s.snt.warmDue = false ∧
    (s.dst d).form = none ∧
    (s.dst d).offer = none ∧
    (s.dst d).c0 = none ∧
    (s.dst d).parked = none ∧
    s.head d s.rank = some p ∧
    s.offerOk d (s.src p).key = true ∧
    (s.src p).st = .pending ∧ (let k : Nat := 5
    k ≠ d)) ∧
    (let s : State := {}
    let d : Nat := 0
    let p : Nat := 0
    d < 576 ∧
    p < 0x5A40 ∧
    s.snt.warmDue = false ∧
    (s.dst d).form = none ∧
    (s.dst d).offer = none ∧
    (s.dst d).c0 = none ∧
    (s.dst d).parked = none ∧
    s.head d s.rank = none) ∧
    (let s : State := { rank := 1000000, tbl := [(4194320, 1#32)], dsts := [(1, { parked := (some { psn := 7, cls := 2, prio := 3, vtag := 0, tenant := 0, seq := 1#16, replay := false, start := 999991 }), upPin := true })] }
    let d : Nat := 1
    let p : Nat := 7
    d < 576 ∧
    p < 0x5A40 ∧
    s.snt.warmDue = false ∧
    (s.dst d).form = none ∧
    (s.dst d).offer = none ∧
    (s.dst d).c0 = none ∧ (let o : Offer := { psn := 7, cls := 2, prio := 3, vtag := 0, tenant := 0, seq := 1#16, replay := false, start := 999991 }
    (s.dst d).parked = some o ∧
    o.psn < 0x5A40 ∧
    s.offerOk d (s.src o.psn).key = true ∧
    (s.dst d).claimAt.getD 0 < s.rank ∧
    (∀ q, s.head d s.rank = some q → moreUrgent (s.dst d).stamp (s.src q).key (s.src o.psn).key = false))) ∧
    (let s : State := { rank := 1000000, tbl := [(4194320, 12871#32)], srcs := [(5, { st := .pending }), (6, { key := { psn := 6 }, dst := 1 })], dsts := [(1, { heap := [5], parked := (some { psn := 6, cls := 3, prio := 9, vtag := 6, tenant := 0, seq := 3#16, replay := false, start := 999980 }), upPin := true })] }
    let d : Nat := 1
    let p : Nat := 6
    d < 576 ∧
    p < 0x5A40 ∧
    s.snt.warmDue = false ∧
    (s.dst d).form = none ∧
    (s.dst d).offer = none ∧
    (s.dst d).c0 = none ∧ (let o : Offer := { psn := 6, cls := 3, prio := 9, vtag := 6, tenant := 0, seq := 3#16, replay := false, start := 999980 }
    (s.dst d).parked = some o ∧
    o.psn < 0x5A40 ∧
    s.offerOk d (s.src o.psn).key = true ∧
    (s.dst d).claimAt.getD 0 < s.rank ∧ (let q : Nat := 5
    s.head d s.rank = some q ∧
    moreUrgent (s.dst d).stamp (s.src q).key (s.src o.psn).key = true ∧
    (s.dst d).heap.length < 128 ∧
    (s.src o.psn).dst = d ∧
    (s.src q).st = .pending ∧
    q ≠ o.psn))) ∧
    (let s : State := {}
    let d : Nat := 0
    let p : Nat := 0
    d < 576 ∧
    p < 0x5A40 ∧
    s.snt.warmDue = false ∧
    (s.dst d).form = none) ∧
    (let s : State := { rank := 1000000, dsts := [(0, { form := (some (5, 1000001)) })], ldr := { phase := .opened } }
    let d : Nat := 0
    let p : Nat := 5
    d < 576 ∧
    p < 0x5A40 ∧
    s.snt.warmDue = false ∧ (let ready : Nat := 1000001
    (s.dst d).form = some (p, ready) ∧
    s.domStill 0 = false ∧
    s.serving = true ∧
    s.rank < ready)) ∧
    (let s : State := { rank := 1000000, srcs := [(5, { st := .pending })], dsts := [(0, { form := (some (5, 999999)) })], ldr := { phase := .opened } }
    let d : Nat := 0
    let p : Nat := 5
    d < 576 ∧
    p < 0x5A40 ∧
    s.snt.warmDue = false ∧ (let ready : Nat := 999999
    (s.dst d).form = some (p, ready) ∧
    s.domStill 0 = false ∧
    s.serving = true ∧
    ready ≤ s.rank ∧
    (s.dst d).parked = none ∧
    (s.src p).st = .pending ∧
    (s.src p).dst = d)) ∧
    (let s : State := { rank := 1000000, dsts := [(0, { parked := (some { psn := 6, cls := 3, prio := 9, vtag := 6, tenant := 0, seq := 3#16, replay := false, start := 999980 }), form := (some (6, 1000000)) })], ldr := { phase := .opened } }
    let d : Nat := 0
    let p : Nat := 6
    d < 576 ∧
    p < 0x5A40 ∧
    s.snt.warmDue = false ∧ (let ready : Nat := 1000000
    (s.dst d).form = some (p, ready) ∧
    s.domStill 0 = false ∧
    s.serving = true ∧
    ready ≤ s.rank ∧ (let o : Offer := { psn := 6, cls := 3, prio := 9, vtag := 6, tenant := 0, seq := 3#16, replay := false, start := 999980 }
    (s.dst d).parked = some o ∧
    o.psn = p))) := by
  refine ⟨?_, ?_, ?_, ?_, ?_, ?_, ?_, ?_, ?_, ?_⟩ <;> decide +kernel

theorem witness_ConfirmWindow :
    (let s : State := { rank := 1000000, dsts := [(1, { offer := (some { psn := 2049, cls := 2, prio := 3, vtag := 0, tenant := 0, seq := 1#16, replay := true, start := 999997 }) })] }
    let d : Nat := 1
    let o : Offer := { psn := 2049, cls := 2, prio := 3, vtag := 0, tenant := 0, seq := 1#16, replay := true, start := 999997 }
    d < 576 ∧
    (s.dst d).offer = some o ∧
    o.conf = none ∧
    s.snt.warmDue = false ∧
    o.start + 3 = s.rank) ∧
    (let s : State := { rank := 6, dsts := [(0, { offer := (some { psn := 5, cls := 2, prio := 3, vtag := 0, tenant := 0, seq := 1#16, replay := false, start := 0 }) })] }
    let d : Nat := 0
    let o : Offer := { psn := 5, cls := 2, prio := 3, vtag := 0, tenant := 0, seq := 1#16, replay := false, start := 0 }
    d < 576 ∧
    (s.dst d).offer = some o ∧
    o.conf = none ∧
    s.snt.warmDue = false ∧
    o.start + 6 ≤ s.rank ∧
    o.chk = 0 ∧
    o.beaten = false) ∧
    (let s : State := { rank := 1000000, dsts := [(1, { offer := (some { psn := 5, cls := 2, prio := 3, vtag := 0, tenant := 0, seq := 1#16, replay := false, start := 999994, beaten := true }) })] }
    let d : Nat := 1
    let o : Offer := { psn := 5, cls := 2, prio := 3, vtag := 0, tenant := 0, seq := 1#16, replay := false, start := 999994, beaten := true }
    d < 576 ∧
    (s.dst d).offer = some o ∧
    o.conf = none ∧
    s.snt.warmDue = false ∧
    o.start + 6 ≤ s.rank ∧
    o.chk = 0 ∧
    o.beaten = true ∧
    o.psn < 0x5A40) ∧
    (let s : State := { dsts := [(1, { offer := (some { psn := 2304, cls := 2, prio := 3, vtag := 0, tenant := 0, seq := 1#16, replay := true, start := 1000000 }) })] }
    let d : Nat := 1
    let o : Offer := { psn := 2304, cls := 2, prio := 3, vtag := 0, tenant := 0, seq := 1#16, replay := true, start := 1000000 }
    d < 576 ∧
    (s.dst d).offer = some o ∧
    o.conf = none ∧
    s.snt.warmDue = false ∧
    s.rank < o.start + 6) := by
  refine ⟨?_, ?_, ?_, ?_⟩ <;> decide +kernel

theorem witness_ClaimsAndCompletions :
    (let s : State := { dsts := [(1, { offer := (some { psn := 5, cls := 0, prio := 3, vtag := 0, tenant := 0, seq := 1#16, replay := false, start := 999993, conf := (some 999999) }), upPin := true })] }
    let t : Nat := 1
    t < 512 ∧
    s.dstUp t = true ∧
    s.domStill 0 = false ∧
    s.snt.warmDue = false ∧ (let o : Offer := { psn := 5, cls := 0, prio := 3, vtag := 0, tenant := 0, seq := 1#16, replay := false, start := 999993, conf := (some 999999) }
    let c : Nat := 999999
    (s.dst t).c0 = none ∧
    (s.dst t).offer = some o ∧
    o.conf = some c ∧
    o.psn ∉ (s.dst t).nest)) ∧
    (let s : State := { rank := 1000000, dsts := [(1, { c0 := (some { psn := 5, cls := 0, prio := 3, vtag := 0, tenant := 0, seq := 1#16, replay := false, start := 999998 }), upPin := true })] }
    let t : Nat := 1
    t < 512 ∧
    s.dstUp t = true ∧
    s.domStill 0 = false ∧
    s.snt.warmDue = false ∧ (let o : Offer := { psn := 5, cls := 0, prio := 3, vtag := 0, tenant := 0, seq := 1#16, replay := false, start := 999998 }
    (s.dst t).c0 = some o ∧
    o.start < s.rank ∧
    (s.src o.psn).doom = false ∧
    o.psn ∉ (s.dst t).nest)) ∧
    (let s : State := { dsts := [(1, { offer := (some { psn := 6, cls := 2, prio := 3, vtag := 0, tenant := 0, seq := 1#16, replay := true, start := 999994 }), upPin := true })] }
    let t : Nat := 1
    t < 512 ∧
    s.dstUp t = true ∧
    s.domStill 0 = false ∧
    s.snt.warmDue = false ∧ (let o : Offer := { psn := 6, cls := 2, prio := 3, vtag := 0, tenant := 0, seq := 1#16, replay := true, start := 999994 }
    (s.dst t).c0 = none ∧
    (s.dst t).offer = some o ∧
    o.conf = none)) ∧
    (let s : State := { dsts := [(0, { nest := [5], upPin := true })] }
    let t : Nat := 0
    t < 512 ∧
    s.dstUp t = true ∧
    s.domStill 0 = false ∧
    s.snt.warmDue = false ∧ (let p : Nat := 5
    let rest : List Nat := []
    (s.dst t).claimAt ≠ some s.rank ∧
    (s.dst t).nest = p :: rest ∧
    (p :: rest).Nodup ∧
    (s.src p).kept = false)) ∧
    (let s : State := { rank := 1000000, dsts := [(1, { nest := [5, 7], claimAt := (some 1000000), upPin := true })] }
    let t : Nat := 1
    t < 512 ∧
    s.dstUp t = true ∧
    s.domStill 0 = false ∧
    s.snt.warmDue = false ∧ (let p : Nat := 5
    let q : Nat := 7
    let rest : List Nat := []
    (s.dst t).claimAt = some s.rank ∧
    (s.dst t).nest = p :: q :: rest ∧
    p ≠ q ∧
    (s.src q).kept = false)) ∧
    (let s : State := { srcs := [(5, { st := .completing, q := [{}] })] }
    let p : Nat := 5
    let i : Inst := {}
    let rest : List Inst := []
    p < 0x5A40 ∧
    s.domStill 0 = false ∧
    s.snt.warmDue = false ∧
    (s.src p).st = .completing ∧
    (s.src p).kept = false ∧
    (s.src p).q = i :: rest ∧
    s.instHeld i = 0 ∧
    s.rank < (s.src p).since + 2) ∧
    (let s : State := { rank := 1000000, tbl := [(1048656, 1#32)], ins := [(5, { level := true })], srcs := [(5, { st := .completing, q := [{}] })], ldr := { phase := .opened } }
    let p : Nat := 5
    let i : Inst := {}
    let rest : List Inst := []
    p < 0x5A40 ∧
    s.domStill 0 = false ∧
    s.snt.warmDue = false ∧
    (s.src p).st = .completing ∧
    (s.src p).kept = false ∧
    (s.src p).q = i :: rest ∧
    s.instHeld i = 0 ∧
    p < 0x0800 ∧
    rest = [] ∧
    (s.src p).since + 2 ≤ s.rank ∧
    (s.src p).flushed = false ∧
    i.occ = none ∧
    fld (s.wcfg p) 2 2 = 0 ∧
    bit (s.wcfg p) 0 = true ∧
    (s.inp p).level = true ∧
    s.meiOver p = true ∧
    (s.inp p).retry = false ∧
    s.serving = true ∧
    fld (s.tw 0x02 p 2) 0 8 = 0 ∧
    s.isC0 p = false) ∧
    (let s : State := { rank := 2, srcs := [(2049, { st := .completing, q := [{}] })] }
    let p : Nat := 2049
    let i : Inst := {}
    let rest : List Inst := []
    p < 0x5A40 ∧
    s.domStill 0 = false ∧
    s.snt.warmDue = false ∧
    (s.src p).st = .completing ∧
    (s.src p).kept = false ∧
    (s.src p).q = i :: rest ∧
    s.instHeld i = 0 ∧
    (s.src p).since + 2 ≤ s.rank ∧
    (s.src p).flushed = false ∧
    (0x0800 ≤ p ∨ rest ≠ [] ∨ fld (s.wcfg p) 2 2 ≠ 0 ∨ (s.inp p).level = false)) := by
  refine ⟨?_, ?_, ?_, ?_, ?_, ?_, ?_, ?_⟩ <;> decide +kernel

theorem witness_TimersAndTargets :
    (let s : State := { rank := 1000000, dsts := [(1, { offer := (some { psn := 2304, cls := 2, prio := 3, vtag := 0, tenant := 0, seq := 1#16, replay := false, start := 999900 }), timer := (some 0) })] }
    let t : Nat := 1
    t < 512 ∧
    s.snt.warmDue = false ∧ (let o : Offer := { psn := 2304, cls := 2, prio := 3, vtag := 0, tenant := 0, seq := 1#16, replay := false, start := 999900 }
    let t0 : Nat := 0
    (s.dst t).timer = some t0 ∧
    fld (s.tcfg t) 8 12 ≠ 0 ∧
    t0 + 64 * fld (s.tcfg t) 8 12 ≤ s.rank ∧
    (s.dst t).c0 = none ∧
    (s.dst t).offer = some o ∧
    s.reselectTo o.psn t = none ∧
    o.psn < 0x5A00 ∧
    (s.func (4640 + t)).tmr = none ∧
    (s.func (4640 + t)).busy = false ∧
    (s.func (4640 + t)).retired = false)) ∧
    (let s : State := { dsts := [(1, { timer := (some 0) })] }
    let t : Nat := 1
    t < 512 ∧
    s.snt.warmDue = false ∧ (let t0 : Nat := 0
    (s.dst t).timer = some t0 ∧
    (fld (s.tcfg t) 8 12 = 0 ∨ s.rank < t0 + 64 * fld (s.tcfg t) 8 12))) ∧
    (let s : State := {}
    let t : Nat := 0
    t < 512 ∧
    s.snt.warmDue = false) ∧
    (let s : State := {}
    let t : Nat := 0
    t < 512 ∧
    s.snt.warmDue = false ∧
    s.dstUp t = false) ∧
    (let s : State := { tbl := [(4194304, 1#32)], srcs := [(5, { st := .active })], dsts := [(0, { nest := [5], upPin := true })] }
    let t : Nat := 0
    t < 512 ∧
    s.snt.warmDue = false ∧ (let p : Nat := 5
    s.dstUp t = true ∧
    s.domOn 0 = true ∧
    (s.dst t).nest = [p] ∧
    (s.dst t).offer = none ∧
    (s.dst t).parked = none ∧
    (s.dst t).c0 = none ∧
    bit (s.tcfg t) 2 = false ∧
    (s.src p).st = .active ∧
    p < 0x5A40)) := by
  refine ⟨?_, ?_, ?_, ?_, ?_⟩ <;> decide +kernel

theorem witness_EnginesTakeOffers :
    (let s : State := { rank := 4, tbl := [(5767184, 1#32)], dsts := [(512, { offer := (some { psn := 5, cls := 2, prio := 3, vtag := 0, tenant := 0, seq := 1#16, replay := false, start := 0, conf := (some 0) }) })], engs := [(1, { st := .idle })] }
    let p : Nat := 0
    let psn : Nat := 5
    let e : Nat := 1
    p < 64 ∧
    s.domStill 0 = false ∧
    s.takeable p = some psn ∧
    s.taker p = some e ∧
    psn < 0x5A40 ∧
    s.snt.warmDue = false) ∧
    (let s : State := { tbl := [(5767184, 1#32)], engs := [(1, { st := .idle })] }
    let p : Nat := 0
    let e : Nat := 1
    s.taker p = some e) ∧
    (let s : State := { tbl := [(5767184, 1#32)], engs := [(1, { st := .idle })] }
    let p : Nat := 0
    let e : Nat := 1
    s.taker p = some e ∧ (let k : Nat := 0
    mFind s.edge.ecfg k = none)) ∧
    (let s : State := { tbl := [(5767168, 1#32), (5767184, 1#32)], engs := [(0, { st := .idle, doneAt := 2 }), (1, { st := .idle })] }
    let p : Nat := 0
    let e : Nat := 1
    s.taker p = some e ∧
    bit (s.tw 0x0C p 0) 0 = false ∧ (let k : Nat := 0
    k < e ∧
    s.memberBefore k p = true ∧
    s.idleEng k = true)) := by
  refine ⟨?_, ?_, ?_, ?_⟩ <;> decide +kernel

theorem witness_EngineRuns :
    (let s : State := { rank := 1000000, engs := [(0, { st := .load })] }
    let e : Nat := 0
    e < 512 ∧
    s.domStill (8 + e / 16) = false ∧
    s.snt.warmDue = false ∧
    (s.eng e).st = .load ∧
    (s.eng e).bindOk = true ∧
    (s.eng e).takeAt + 4 ≤ s.eng2) ∧
    (let s : State := { engs := [(0, { st := .load })] }
    let e : Nat := 0
    e < 512 ∧
    s.domStill (8 + e / 16) = false ∧
    s.snt.warmDue = false ∧
    (s.eng e).st = .load ∧
    s.eng2 < (s.eng e).takeAt + 4) ∧
    (let s : State := { engs := [(0, { st := .run, budget := 1000 })] }
    let e : Nat := 0
    e < 512 ∧
    s.domStill (8 + e / 16) = false ∧
    s.snt.warmDue = false ∧
    (s.eng e).st = .run ∧
    s.cycles e < (s.eng e).budget) ∧
    (let s : State := { tbl := [(7864320, 4227858432#32)], engs := [(0, { st := .run, budget := 1 })] }
    let e : Nat := 0
    e < 512 ∧
    s.domStill (8 + e / 16) = false ∧
    s.snt.warmDue = false ∧ (let atEnd := s.issuing e = true ∧ s.cycles e = (s.eng e).budget ∧ s.fetched e = 0xFC000000 ∧
          (s.eng e).pc = (s.eng e).entry + (s.eng e).len - 1
    atEnd)) ∧
    (let s : State := { engs := [(1, { st := .run })] }
    let e : Nat := 1
    e < 512 ∧
    s.domStill (8 + e / 16) = false ∧
    s.snt.warmDue = false ∧ (let atEnd := s.issuing e = true ∧ s.cycles e = (s.eng e).budget ∧ s.fetched e = 0xFC000000 ∧
          (s.eng e).pc = (s.eng e).entry + (s.eng e).len - 1
    (s.eng e).st = .run ∧
    (s.eng e).budget ≤ s.cycles e ∧
    ¬atEnd ∧
    (s.eng e).occ = none ∧
    s.seqsOf e = [] ∧
    (s.eng e).stall = .none ∧
    (s.func e).tmr = none ∧
    (s.func e).busy = false ∧
    (s.func e).retired = false)) := by
  refine ⟨?_, ?_, ?_, ?_, ?_⟩ <;> decide +kernel

theorem witness_CompletionsAndTests :
    (let s : State := { engs := [(2, { st := .done, psn := (some 2049) })] }
    let c : Nat := 0
    let e : Nat := 2
    s.snt.warmDue = false ∧ (let p : Nat := 2049
    c < 32 ∧
    (s.cluster c).accAt ≠ some s.eng2 ∧
    s.nextAccept c = some e ∧
    (s.eng e).psn = some p ∧
    (s.eng e).recov = 0)) ∧
    (let s : State := { clusters := [(0, { accAt := (some 0) })] }
    let c : Nat := 0
    s.snt.warmDue = false ∧
    (s.cluster c).accAt = some s.eng2) ∧
    (let s : State := { engs := [(2, { st := .done })] }
    let c : Nat := 0
    let e : Nat := 0
    s.snt.warmDue = false ∧ (let e : Nat := 2
    s.nextAccept c = some e)) ∧
    (let s : State := {}
    s.snt.warmDue = false ∧ (let p : Nat := 0
    (s.src p).kept = false)) ∧
    (let s : State := { rank := 2000000, engs := [(0, { st := .done })] }
    let e : Nat := 0
    s.snt.warmDue = false ∧
    mWf (fun _ => {}) s.engs = true ∧
    (s.eng e).st = .done ∧
    (s.eng e).doneAt < s.eng2) ∧
    (let s : State := { rank := 1000000, engs := [(0, { st := .idle })] }
    let e : Nat := 0
    s.snt.warmDue = false ∧
    e < 512 ∧
    (s.eng e).st = .idle ∧
    (s.eng e).idleAt + 64 ≤ s.eng2 ∧
    s.snt.testEng = none ∧
    s.domStill (8 + e / 16) = false ∧
    (s.eng e).recov = 0 ∧
    (∀ i < (e + 512 - s.snt.testNext) % 512, s.testable ((s.snt.testNext + i) % 512) = false)) ∧
    (let s : State := { rank := 1000000, engs := [(0, { st := .test })] }
    let e : Nat := 0
    s.snt.warmDue = false ∧
    e < 512 ∧
    (s.eng e).st = .test ∧
    (s.eng e).testAt + 512 ≤ s.eng2) ∧
    (let s : State := { rank := 101000000 }
    s.snt.warmDue = false ∧
    s.snt.testFrom + 64000000 ≤ s.rank) ∧
    (let s : State := {}
    s.snt.warmDue = false ∧
    s.rank < s.snt.testFrom + 64000000) := by
  refine ⟨?_, ?_, ?_, ?_, ?_, ?_, ?_, ?_, ?_⟩ <;> decide +kernel

theorem witness_OutboundPort_1 :
    (let s : State := { clusters := [(1, { queue := [(.plain 16 0x00004004#32 0x00000009#32)] })], arbs := [(0, { holder := (some 1) })], ldr := { phase := .opened } }
    let h : Nat := 1
    s.outValid = true ∧
    s.outAt ≠ some s.eng2 ∧
    (s.arb 0).holder = some h ∧
    s.snt.warmDue = false ∧ (let c := s.cluster h
    let e : Nat := 16
    let a : BitVec 32 := 16388#32
    let d : BitVec 32 := 9#32
    let rest : List QItem := []
    h < 32 ∧
    c.queue = .plain e a d :: rest ∧
    c.stalled = [])) ∧
    (let s : State := { clusters := [(0, { queue := [(.marker 5000)] })], seqs := [(5000, { id := 5000, engine := 0, locks := [], writes := [(16384#32, 7#32), (16388#32, 9#32)], outh := false, ph := (.burst 0) })], arbs := [(0, { holder := (some 0) })], ldr := { phase := .opened } }
    let h : Nat := 0
    s.outValid = true ∧
    s.outAt ≠ some s.eng2 ∧
    (s.arb 0).holder = some h ∧
    s.snt.warmDue = false ∧ (let c := s.cluster h
    let id : Nat := 5000
    let q : LSeq := { id := 5000, engine := 0, locks := [], writes := [(16384#32, 7#32), (16388#32, 9#32)], outh := false, ph := (.burst 0) }
    let n : Nat := 0
    let w : Word × Word := (16384#32, 7#32)
    let rest : List QItem := []
    h < 32 ∧
    c.queue = .marker id :: rest ∧
    s.lseq id = some q ∧
    q.id = id ∧
    q.ph = .burst n ∧
    q.writes[n]? = some w ∧
    n + 1 < q.writes.length)) ∧
    (let s : State := { clusters := [(0, { queue := [(.marker 5000)] })], seqs := [(5000, { id := 5000, engine := 0, locks := [2], writes := [(16384#32, 7#32), (16388#32, 9#32)], outh := false, ph := (.burst 1) })], arbs := [(0, { holder := (some 0) })], ldr := { phase := .opened } }
    let h : Nat := 0
    s.outValid = true ∧
    s.outAt ≠ some s.eng2 ∧
    (s.arb 0).holder = some h ∧
    s.snt.warmDue = false ∧ (let c := s.cluster h
    let id : Nat := 5000
    let q : LSeq := { id := 5000, engine := 0, locks := [2], writes := [(16384#32, 7#32), (16388#32, 9#32)], outh := false, ph := (.burst 1) }
    let n : Nat := 1
    let w : Word × Word := (16388#32, 9#32)
    let l : Nat := 2
    let rest : List QItem := []
    h < 32 ∧
    c.queue = .marker id :: rest ∧
    c.stalled = [] ∧
    s.lseq id = some q ∧
    q.id = id ∧
    q.ph = .burst n ∧
    q.writes[n]? = some w ∧
    q.writes.length = n + 1 ∧
    q.locks = [l] ∧
    (s.lock l).waiters = [])) ∧
    (let s : State := { clusters := [(0, { queue := [(.marker 5000)] })], arbs := [(0, { holder := (some 0) })], ldr := { phase := .opened } }
    let h : Nat := 0
    s.outValid = true ∧
    s.outAt ≠ some s.eng2 ∧
    (s.arb 0).holder = some h ∧
    s.snt.warmDue = false ∧
    (h < 32 ∨ s.stallRun + 1 < 16)) ∧
    (let s : State := { rank := 1000000, clusters := [(2, { queue := [(.plain 32 0x00004000#32 0x00000000#32)] })], arbs := [(0, { holder := (some 32) })], safeQ := [{ addr := 8#32, data := 6#32, last := true, seq := none, lock := 3 }], ldr := { phase := .opened } }
    let h : Nat := 32
    s.outValid = true ∧
    s.outAt ≠ some s.eng2 ∧
    (s.arb 0).holder = some h ∧
    s.snt.warmDue = false ∧ (let w : SafeWrite := { addr := 8#32, data := 6#32, last := true, seq := none, lock := 3 }
    let rest : List SafeWrite := []
    h = 32 ∧
    s.safeQ = w :: rest ∧
    w.seq = none)) ∧
    (let s : State := { rank := 1000000, clusters := [(1, { queue := [(.plain 16 0x00004000#32 0x00000000#32)] })] }
    let r : Nat := 1
    r < 32 ∧
    s.snt.warmDue = false ∧
    s.domStill 0 = false ∧
    (s.arb 0).next ≤ s.eng2 ∧
    (s.arb 0).holder = none ∧
    (s.arb 0).preempted = none ∧
    s.safeQ = [] ∧
    s.seenAt 0 r s.eng2 = true ∧
    (∀ q, q < 32 → q ≠ r → s.seenAt 0 q s.eng2 = true → s.aheadOf 0 r q = true)) ∧
    (let s : State := {}
    let r : Nat := 0
    r < 32 ∧
    s.snt.warmDue = false) ∧
    (let s : State := { rank := 65536 }
    let r : Nat := 0
    r < 32 ∧
    s.snt.warmDue = false ∧
    (s.arb 0).boundary + 256 ≤ s.eng2) := by
  refine ⟨?_, ?_, ?_, ?_, ?_, ?_, ?_, ?_⟩ <;> decide +kernel

theorem witness_OutboundPort_2 :
    (let s : State := {}
    let r : Nat := 0
    r < 32 ∧
    s.snt.warmDue = false ∧
    s.eng2 < (s.arb 0).boundary + 256) ∧
    (let s : State := { rank := 6 }
    let b : Nat := 0
    let r : Nat := 0
    let wants : Sys2Proof.BankWants := { reqs := [0], lane := false }
    b < 48 ∧
    r < 7 ∧
    s.domStill 0 = false ∧
    s.snt.warmDue = false ∧ (let a := s.arb (b + 1)
    let t := s.eng2
    let asks := fun (q : Nat) => q < 7 ∧ q ∉ a.masked ∧
           ((∃ x ∈ mFind a.wait q, x.1 < t) ∨ mFind a.wait q = none ∧ q ∈ wants.reqs)
    0 < t ∧
    a.next ≤ t ∧
    a.holder = none ∧
    a.preempted = none ∧
    7 ∉ wants.reqs ∧
    mFind a.wait 7 = none ∧
    asks r ∧
    (∀ q, q < 7 → asks q → q ≠ r → s.aheadOf (b + 1) r q = true))) ∧
    (let s : State := { arbs := [(1, { holder := (some 0) })] }
    let b : Nat := 0
    let r : Nat := 0
    let wants : Sys2Proof.BankWants := { reqs := [0], lane := false }
    b < 48 ∧
    r < 7 ∧
    s.domStill 0 = false ∧
    s.snt.warmDue = false ∧ (let a := s.arb (b + 1)
    let t := s.eng2
    a.next ≤ t ∧
    a.holder = some r ∧
    a.preempted = none ∧
    a.wait = [] ∧
    wants.reqs = [r] ∧
    r ∉ a.masked ∧
    wants.lane = false)) ∧
    (let s : State := { rank := 1000001, arbs := [(1, { holder := (some 3), next := 500000 })] }
    let b : Nat := 0
    let r : Nat := 3
    b < 48 ∧
    r < 7 ∧
    s.domStill 0 = false ∧
    s.snt.warmDue = false ∧ (let a := s.arb (b + 1)
    let t := s.eng2
    a.next = t ∧
    a.since ≤ t ∧
    a.holder = some r)) ∧
    (let s : State := { arbs := [(1, { next := 500001 })] }
    let b : Nat := 0
    let r : Nat := 0
    b < 48 ∧
    r < 7 ∧
    s.domStill 0 = false ∧
    s.snt.warmDue = false ∧ (let a := s.arb (b + 1)
    let t := s.eng2
    t < a.next)) ∧
    (let s : State := { rank := 65536 }
    let b : Nat := 0
    let r : Nat := 0
    b < 48 ∧
    r < 7 ∧
    s.domStill 0 = false ∧
    s.snt.warmDue = false ∧ (let a := s.arb (b + 1)
    let t := s.eng2
    a.boundary + 1024 ≤ t)) ∧
    (let s : State := { rank := 1000000, ldr := { jobs := [{ req := 1, use := .nvmRead, steps := [(.read 8192 16)] }] } }
    let r : Nat := 1
    let j : NvmJob := { req := 1, use := .nvmRead, steps := [(.read 8192 16)] }
    let at_ : Nat := 8192
    let n : Nat := 16
    let l : List NvmStep := []
    r < 3 ∧
    s.snt.warmDue = false ∧ (let a := s.arb 49
    let t := s.unit 2
    s.domStill 0 = false ∧
    s.domStill 4 = false ∧
    a.next ≤ t ∧
    a.holder = none ∧
    a.preempted = none ∧
    s.seenAt 49 3 t = false ∧
    s.seenAt 49 r t = true ∧
    (∀ q, q < 3 → q ≠ r → s.seenAt 49 q t = true → s.aheadOf 49 r q = true) ∧
    s.headJob r = some j ∧
    j.steps = .read at_ n :: l)) ∧
    (let s : State := { arbs := [(49, { next := 7813 })], ldr := { jobs := [{ req := 1, use := .nvmRead, steps := [] }] } }
    let r : Nat := 0
    r < 3 ∧
    s.snt.warmDue = false ∧ (let a := s.arb 49
    let t := s.unit 2
    t < a.next)) ∧
    (let s : State := { rank := 6400000, ldr := { jobs := [{ req := 0, use := .nvmRead, steps := [] }] } }
    let r : Nat := 0
    r < 3 ∧
    s.snt.warmDue = false ∧ (let a := s.arb 49
    let t := s.unit 2
    a.boundary + 16384 ≤ t)) ∧
    (let s : State := { ldr := { jobs := [{ req := 1, use := .nvmRead, steps := [] }] } }
    let r : Nat := 0
    r < 3 ∧
    s.snt.warmDue = false ∧ (let a := s.arb 49
    let t := s.unit 2
    t < a.boundary + 16384)) := by
  refine ⟨?_, ?_, ?_, ?_, ?_, ?_, ?_, ?_, ?_, ?_⟩ <;> decide +kernel

theorem witness_TearsAndBites :
    (let s : State := { rank := 1000000, clusters := [(1, { queue := [(.marker 5000)] })], seqs := [(5000, { id := 5000, engine := 16, locks := [], writes := [], outh := false, ph := (.burst 1) })], arbs := [(0, { holder := (some 1) })], safeQ := [{ addr := 4#32, data := 5#32, last := true, seq := none, lock := 3 }], stallRun := 16 }
    let h : Nat := 1
    s.snt.warmDue = false ∧ (let q : LSeq := { id := 5000, engine := 16, locks := [], writes := [], outh := false, ph := (.burst 1) }
    s.streaming = some (h, q) ∧
    16 ≤ s.stallRun ∧
    s.seenAt 0 32 s.eng2 = true)) ∧
    (let s : State := {}
    s.snt.warmDue = false ∧
    s.stallRun < 16) ∧
    (let s : State := { rank := 1000000, arbs := [(0, { holder := (some 1) })] }
    let h : Nat := 1
    s.snt.warmDue = false ∧
    h < 32 ∧
    (s.arb 0).holder = some h ∧
    fld (s.reg 0x3010) 0 12 ≠ 0 ∧
    (s.arb 0).since + 64 * fld (s.reg 0x3010) 0 12 ≤ s.eng2 ∧
    s.streaming = none ∧
    (s.func (512 + h)).tmr = none ∧
    (s.func (512 + h)).busy = false ∧
    (s.func (512 + h)).retired = false) ∧
    (let s : State := {}
    let h : Nat := 0
    let n : Nat := 0
    s.snt.warmDue = false ∧ (let i : ArbInst := .nvm
    (h < 32 ∧ i = Sys2Proof.ArbInst.outbound ∧ (s.arb 0).holder = some h ∧
                s.eng2 < (s.arb 0).since + 64 * fld (s.reg 0x3010) 0 12) ∨
              (h < 7 ∧ n < 48 ∧ i = .sram n ∧ (s.arb (n + 1)).holder = some h ∧
                s.eng2 < (s.arb (n + 1)).since + 64 * fld (s.reg 0x3010) 16 12) ∨
              (i = .nvm ∧ s.eng2 < 64 * (s.arb 49).since + fld (s.reg 0x3014) 16 8 * 2 ^ 20))) ∧
    (let s : State := { rank := 1000000, arbs := [(1, { holder := (some 1) })] }
    let h : Nat := 1
    let n : Nat := 0
    s.snt.warmDue = false ∧
    h < 7 ∧
    n < 48 ∧
    (s.arb (n + 1)).holder = some h ∧
    fld (s.reg 0x3010) 16 12 ≠ 0 ∧
    (s.arb (n + 1)).since + 64 * fld (s.reg 0x3010) 16 12 ≤ s.eng2 ∧
    (s.func 5408).busy = false ∧
    (s.func 5408).step = 0 ∧
    (s.func 5408).tmr = none ∧
    s.portUp = true) ∧
    (let s : State := { rank := 101000000, regs := [(12308, 65536#32)], arbs := [(49, { holder := (some 2) })], ldr := { jobs := [{ req := 2, use := .nvmRead, steps := [(.read 4096 16)] }], transOn := true } }
    s.snt.warmDue = false ∧ (let j : NvmJob := { req := 2, use := .nvmRead, steps := [(.read 4096 16)] }
    let a : Nat := 4096
    let k : Nat := 16
    let l : List NvmStep := []
    fld (s.reg 0x3014) 16 8 ≠ 0 ∧
    s.ldr.transOn = true ∧
    64 * (s.arb 49).since + fld (s.reg 0x3014) 16 8 * 2 ^ 20 ≤ s.eng2 ∧
    s.txJob = some j ∧
    j.steps = .read a k :: l ∧
    (s.func 5408).busy = false ∧
    (s.func 5408).step = 0)) ∧
    (let s : State := { rank := 1000063, engs := [(0, { st := .run, seqId := (some 5000) })], locks := [(1, { owner := (some 5000) })], seqs := [(5000, { id := 5000, engine := 0, locks := [1], writes := [], outh := false, ph := .opened })] }
    let n : Nat := 1
    s.snt.warmDue = false ∧ (let id : Nat := 5000
    let q : LSeq := { id := 5000, engine := 0, locks := [1], writes := [], outh := false, ph := .opened }
    n < 64 ∧
    fld (s.reg 0x3014) 0 16 ≠ 0 ∧
    (s.lock n).owner = some id ∧
    s.lseq id = some q ∧
    q.id = id ∧
    (s.lock n).acq + 32 * fld (s.reg 0x3014) 0 16 ≤ s.eng2 ∧
    q.ph = .opened ∧
    n ∈ q.locks ∧
    q.engine < 512 ∧
    s.seqsOf q.engine = [q] ∧
    s.seqCtx q = none ∧
    (s.eng q.engine).st = .run ∧
    (s.eng q.engine).occ = none ∧
    (s.eng q.engine).stall = .none ∧
    (s.func q.engine).tmr = none ∧
    (s.func q.engine).busy = false ∧
    (s.func q.engine).retired = false)) := by
  refine ⟨?_, ?_, ?_, ?_, ?_, ?_, ?_⟩ <;> decide +kernel

theorem witness_TenantMapping_1 :
    (let s : State := { tbl := [(10485778, 655392#32)] }
    let v : Nat := 1
    v < 256 ∧
    s.mapHeld = [] ∧
    s.snt.warmDue = false ∧ (let virt := fld (s.reg 0x2000) 16 15
    let phys := fld (s.reg 0x2000) 0 15
    let j := fld (s.ten v 2) 0 15 + virt
    let e := s.tw 0x15 (j / 16) (j % 16)
    PortActs s 0 ∧
    s.flush = [] ∧
    virt < s.vcnt v ∧
    j ≤ 32767 ∧
    phys < 0x5A40 ∧
    bit e 15 = false ∧
    s.slotNames phys = false ∧
    (s.src phys).st = .idle ∧
    s.inBand v (s.cls phys) (s.prio phys) = true)) ∧
    (let s : State := { regs := [(8192, 416321#32)], tbl := [(10485762, 655360#32)] }
    let v : Nat := 0
    v < 256 ∧
    s.mapHeld = [] ∧
    s.snt.warmDue = false ∧ (let virt := fld (s.reg 0x2000) 16 15
    let phys := fld (s.reg 0x2000) 0 15
    let j := fld (s.ten v 2) 0 15 + virt
    PortActs s 0 ∧
    s.flush = [] ∧
    virt < s.vcnt v ∧
    j ≤ 32767 ∧
    0x5A40 ≤ phys)) ∧
    (let s : State := { regs := [(8192, 9#32)], tbl := [(10485762, 655360#32)], srcs := [(9, { st := .pending })] }
    let v : Nat := 0
    v < 256 ∧
    s.mapHeld = [] ∧
    s.snt.warmDue = false ∧ (let virt := fld (s.reg 0x2000) 16 15
    let phys := fld (s.reg 0x2000) 0 15
    let j := fld (s.ten v 2) 0 15 + virt
    let e := s.tw 0x15 (j / 16) (j % 16)
    PortActs s 0 ∧
    s.flush = [] ∧
    virt < s.vcnt v ∧
    j ≤ 32767 ∧
    phys < 0x5A40 ∧
    bit e 15 = false ∧
    s.slotNames phys = false ∧
    (s.src phys).st ≠ .idle)) ∧
    (let s : State := { tbl := [(10485761, 261888#32), (10485762, 65536#32)] }
    let v : Nat := 0
    v < 256 ∧
    s.mapHeld = [] ∧
    s.snt.warmDue = false ∧ (let virt := fld (s.reg 0x2000) 16 15
    let phys := fld (s.reg 0x2000) 0 15
    let j := fld (s.ten v 2) 0 15 + virt
    let e := s.tw 0x15 (j / 16) (j % 16)
    PortActs s 0 ∧
    s.flush = [] ∧
    virt < s.vcnt v ∧
    j ≤ 32767 ∧
    phys < 0x5A40 ∧
    bit e 15 = false ∧
    s.slotNames phys = false ∧
    (s.src phys).st = .idle ∧
    s.inBand v (s.cls phys) (s.prio phys) = false)) ∧
    (let s : State := { tbl := [(10485762, 196608#32), (11010048, 32773#32)] }
    let v : Nat := 0
    v < 256 ∧
    s.mapHeld = [] ∧
    s.snt.warmDue = false ∧ (let virt := fld (s.reg 0x2000) 16 15
    let phys := fld (s.reg 0x2000) 0 15
    let j := fld (s.ten v 2) 0 15 + virt
    let e := s.tw 0x15 (j / 16) (j % 16)
    PortActs s 0 ∧
    s.flush = [] ∧
    virt < s.vcnt v ∧
    j ≤ 32767 ∧
    phys < 0x5A40 ∧
    (bit e 15 = true ∨ s.slotNames phys = true))) ∧
    (let s : State := {}
    let v : Nat := 0
    v < 256 ∧
    s.mapHeld = [] ∧
    s.snt.warmDue = false ∧ (let virt := fld (s.reg 0x2000) 16 15
    let j := fld (s.ten v 2) 0 15 + virt
    PortActs s 0 ∧
    s.flush = [] ∧
    (s.vcnt v ≤ virt ∨ 32767 < j))) ∧
    (let s : State := { tbl := [(10485762, 196608#32), (11010048, 32773#32)] }
    let v : Nat := 0
    v < 256 ∧
    s.mapHeld = [] ∧
    s.snt.warmDue = false ∧ (let virt := fld (s.reg 0x2000) 16 15
    let j := fld (s.ten v 2) 0 15 + virt
    let e := s.tw 0x15 (j / 16) (j % 16)
    let was := fld e 0 15
    PortActs s 0 ∧
    s.flush = [] ∧
    virt < s.vcnt v ∧
    j ≤ 32767 ∧
    bit e 15 = true ∧
    (s.src was).st = .idle)) ∧
    (let s : State := { tbl := [(10485762, 65536#32)] }
    let v : Nat := 0
    v < 256 ∧
    s.mapHeld = [] ∧
    s.snt.warmDue = false ∧ (let virt := fld (s.reg 0x2000) 16 15
    let j := fld (s.ten v 2) 0 15 + virt
    let e := s.tw 0x15 (j / 16) (j % 16)
    PortActs s 0 ∧
    s.flush = [] ∧
    virt < s.vcnt v ∧
    j ≤ 32767 ∧
    bit e 15 = false)) := by
  refine ⟨?_, ?_, ?_, ?_, ?_, ?_, ?_, ?_⟩ <;> (unfold PortActs; decide +kernel)

theorem witness_TenantMapping_2 :
    (let s : State := { tbl := [(10485762, 655360#32), (11010048, 32775#32)], srcs := [(7, { st := .pending })] }
    let v : Nat := 0
    v < 256 ∧
    s.mapHeld = [] ∧
    s.snt.warmDue = false ∧ (let virt := fld (s.reg 0x2000) 16 15
    let j := fld (s.ten v 2) 0 15 + virt
    let e := s.tw 0x15 (j / 16) (j % 16)
    let was := fld e 0 15
    PortActs s 0 ∧
    s.flush = [] ∧
    virt < s.vcnt v ∧
    j ≤ 32767 ∧
    bit e 15 = true ∧
    (s.src was).st ≠ .idle)) ∧
    (let s : State := {}
    let v : Nat := 0
    v < 256 ∧
    s.mapHeld = [] ∧
    s.snt.warmDue = false ∧
    PortActs s 0 ∧
    s.flush = []) ∧
    (let s : State := { tbl := [(557140, 1#32), (10485762, 655360#32), (11010049, 34821#32)], srcs := [(2053, { st := .pending })], flush := [(0, 0)] }
    let v : Nat := 0
    v < 256 ∧
    s.mapHeld = [] ∧
    s.snt.warmDue = false ∧ (let n : Nat := 0
    let k : Nat := 1
    let p : Nat := 2053
    s.flush = [(v, n)] ∧
    n ≤ k ∧
    k < n + 8 ∧
    (∀ x ∈ s.occs, x.2.ctx < 4096) ∧
    0x0800 ≤ p ∧
    p < 0x4800 ∧
    s.mapSlot v k = some p ∧
    s.mappedTo p = some v ∧
    (s.src p).st = .pending ∧
    (s.src p).place ≠ .direct)) ∧
    (let s : State := { flush := [(0, 0)] }
    let v : Nat := 0
    v < 256 ∧
    s.mapHeld = [] ∧
    s.snt.warmDue = false ∧ (let n : Nat := 0
    s.flush = [(v, n)] ∧
    s.vcnt v ≤ n ∧
    (s.func (5152 + v)).busy = false)) ∧
    (let s : State := { tbl := [(10485762, 655360#32)], flush := [(0, 0)] }
    let v : Nat := 0
    v < 256 ∧
    s.mapHeld = [] ∧
    s.snt.warmDue = false ∧ (let n : Nat := 0
    s.flush = [(v, n)] ∧
    n < s.vcnt v)) ∧
    (let s : State := {}
    let v : Nat := 0
    v < 256 ∧
    s.mapHeld = [] ∧
    s.snt.warmDue = false ∧
    s.flush = []) := by
  refine ⟨?_, ?_, ?_, ?_, ?_, ?_⟩
  · unfold PortActs; decide +kernel
  · unfold PortActs; decide +kernel
  · decide +kernel
  · decide +kernel
  · decide +kernel
  · decide +kernel

theorem witness_SamplesAndExtrapolation_1 :
    (let s : State := { bases := [(0, { st := .run })] }
    let n : Nat := 0
    n < 16 ∧
    s.isTime n = false ∧
    s.domStill 1 = false ∧ (let b := s.base n
    s.snt.warmDue = false ∧
    b.st ≠ .disabled ∧
    (s.phsEdge n).sample = none)) ∧
    (let s : State := {}
    let n : Nat := 0
    n < 16 ∧
    s.isTime n = false ∧
    s.domStill 1 = false ∧ (let b := s.base n
    s.snt.warmDue = false ∧
    b.st = .disabled)) ∧
    (let s : State := { bases := [(0, { st := .run })] }
    let n : Nat := 0
    n < 16 ∧
    s.isTime n = false ∧
    s.domStill 1 = false ∧ (let b := s.base n
    let live := b.st = .run ∨ b.st = .unref
    s.phsEdge n = {} ∧
    live)) ∧
    (let s : State := { bases := [(0, { st := .run })] }
    let n : Nat := 0
    n < 16 ∧
    s.isTime n = false ∧
    s.domStill 1 = false ∧ (let b := s.base n
    let live := b.st = .run ∨ b.st = .unref
    let on := b.ai + BitVec.ofInt 80 b.vel.toInt
    s.phsEdge n = {} ∧
    live ∧ (let d := (angTu on - b.ap).toInt
    (b.dir = .still ∨ (b.dir = .fwd ∧ 0 < d) ∨ (b.dir = .rev ∧ d < 0))))) ∧
    (let s : State := { bases := [(0, { st := .run, dir := .fwd })] }
    let n : Nat := 0
    n < 16 ∧
    s.isTime n = false ∧
    s.domStill 1 = false ∧ (let b := s.base n
    let live := b.st = .run ∨ b.st = .unref
    let on := b.ai + BitVec.ofInt 80 b.vel.toInt
    s.phsEdge n = {} ∧
    live ∧ (let d := (angTu on - b.ap).toInt
    (b.dir = .fwd ∧ d ≤ 0) ∨ (b.dir = .rev ∧ 0 ≤ d)))) ∧
    (let s : State := { bases := [(0, { st := .held })] }
    let n : Nat := 0
    n < 16 ∧
    s.isTime n = false ∧
    s.domStill 1 = false ∧ (let b := s.base n
    s.phsEdge n = {} ∧
    b.st = .held)) ∧
    (let s : State := { edge := { phs := [(0, { sample := (some { ang := 2147483647#32, spd := 0#32, iang := 0#32, flg := 0#8 }) })] }, bases := [(0, { st := .run })] }
    let n : Nat := 0
    let ang : Word := 2147483647#32
    let spd : Word := 0#32
    let iang : Word := 0#32
    let flg : BitVec 8 := 0#8
    n < 16 ∧
    s.isTime n = false ∧
    s.domStill 1 = false ∧ (let b := s.base n
    let x : FeedSample := { ang := ang, spd := spd, iang := iang, flg := flg }
    b.st ≠ .disabled ∧
    s.phsEdge n = { sample := some x })) ∧
    (let s : State := { edge := { phs := [(0, { sample := (some { ang := 2147483647#32, spd := 0#32, iang := 0#32, flg := 0#8 }) })] }, bases := [(0, { st := .run })] }
    let n : Nat := 0
    let ang : Word := 2147483647#32
    let spd : Word := 0#32
    let iang : Word := 0#32
    let flg : BitVec 8 := 0#8
    n < 16 ∧
    s.isTime n = false ∧
    s.domStill 1 = false ∧ (let b := s.base n
    let x : FeedSample := { ang := ang, spd := spd, iang := iang, flg := flg }
    b.st ≠ .disabled ∧
    s.phsEdge n = { sample := some x } ∧
    flg.getLsbD 0 = false)) := by
  refine ⟨?_, ?_, ?_, ?_, ?_, ?_, ?_, ?_⟩ <;> decide +kernel

theorem witness_SamplesAndExtrapolation_2 :
    (let s : State := { edge := { phs := [(0, { sample := (some { ang := 2147483647#32, spd := 0#32, iang := 0#32, flg := 0#8 }) })] }, bases := [(0, { st := .run })] }
    let n : Nat := 0
    let ang : Word := 2147483647#32
    let spd : Word := 0#32
    let iang : Word := 0#32
    let flg : BitVec 8 := 0#8
    n < 16 ∧
    s.isTime n = false ∧
    s.domStill 1 = false ∧ (let b := s.base n
    let x : FeedSample := { ang := ang, spd := spd, iang := iang, flg := flg }
    let live := b.st = .run ∨ b.st = .unref
    b.st ≠ .disabled ∧
    s.phsEdge n = { sample := some x } ∧
    flg.getLsbD 0 = false ∧
    live)) ∧
    (let s : State := { edge := { phs := [(0, { sample := (some { ang := 2147483647#32, spd := 0#32, iang := 0#32, flg := 0#8 }) })] }, bases := [(0, { st := .held })] }
    let n : Nat := 0
    let ang : Word := 2147483647#32
    let spd : Word := 0#32
    let iang : Word := 0#32
    let flg : BitVec 8 := 0#8
    n < 16 ∧
    s.isTime n = false ∧
    s.domStill 1 = false ∧ (let b := s.base n
    let x : FeedSample := { ang := ang, spd := spd, iang := iang, flg := flg }
    b.st ≠ .disabled ∧
    s.phsEdge n = { sample := some x } ∧
    flg.getLsbD 0 = false ∧
    b.st = .held)) ∧
    (let s : State := { edge := { phs := [(0, { sample := (some { ang := 2147483647#32, spd := 0#32, iang := 0#32, flg := 1#8 }) })] }, bases := [(0, { st := .run })] }
    let n : Nat := 0
    let ang : Word := 2147483647#32
    let spd : Word := 0#32
    let iang : Word := 0#32
    let flg : BitVec 8 := 1#8
    n < 16 ∧
    s.isTime n = false ∧
    s.domStill 1 = false ∧ (let b := s.base n
    let x : FeedSample := { ang := ang, spd := spd, iang := iang, flg := flg }
    b.st ≠ .disabled ∧
    s.phsEdge n = { sample := some x } ∧
    flg.getLsbD 0 = true)) ∧
    (let s : State := { edge := { phs := [(0, { sample := (some { ang := 2147483647#32, spd := 2147483647#32, iang := 0#32, flg := 1#8 }) })] }, bases := [(0, { st := .run, lastRev := true })] }
    let n : Nat := 0
    let ang : Word := 2147483647#32
    let spd : Word := 2147483647#32
    let iang : Word := 0#32
    let flg : BitVec 8 := 1#8
    n < 16 ∧
    s.isTime n = false ∧
    s.domStill 1 = false ∧ (let b := s.base n
    let x : FeedSample := { ang := ang, spd := spd, iang := iang, flg := flg }
    b.st ≠ .disabled ∧
    s.phsEdge n = { sample := some x } ∧
    flg.getLsbD 0 = true ∧ (let neg := s.btype n = 1 ∧ spd.toInt < 0
    let v : Int := if flg.getLsbD 1 = true ∨ flg.getLsbD 2 = true ∨ neg then 0
              else max (-2 ^ 31) (min ((spd.toInt * ((s.bReg n 4).toNat : Int)) / 2 ^ 16) (2 ^ 31 - 1))
    let vmin : Int := (fld (s.bReg n 0x38) 0 31 : Int)
    let dir : Dir := if vmin < v then .fwd else if v < -vmin then .rev else .still
    let turns := dir ≠ .still ∧ decide (dir = .rev) ≠ b.lastRev
    turns))) ∧
    (let s : State := { edge := { phs := [(0, { sample := (some { ang := 2147483647#32, spd := 0#32, iang := 0#32, flg := 1#8 }) })] }, bases := [(0, { st := .run })] }
    let n : Nat := 0
    let ang : Word := 2147483647#32
    let spd : Word := 0#32
    let iang : Word := 0#32
    let flg : BitVec 8 := 1#8
    n < 16 ∧
    s.isTime n = false ∧
    s.domStill 1 = false ∧ (let b := s.base n
    let x : FeedSample := { ang := ang, spd := spd, iang := iang, flg := flg }
    b.st ≠ .disabled ∧
    s.phsEdge n = { sample := some x } ∧
    flg.getLsbD 0 = true ∧
    (flg.getLsbD 3 = false ∨ s.btype n ≠ 0))) ∧
    (let s : State := { edge := { phs := [(0, { sample := (some { ang := 2147483647#32, spd := 0#32, iang := 0#32, flg := 1#8 }) })] }, bases := [(0, { st := .run })] }
    let n : Nat := 0
    let ang : Word := 2147483647#32
    let spd : Word := 0#32
    let iang : Word := 0#32
    let flg : BitVec 8 := 1#8
    n < 16 ∧
    s.isTime n = false ∧
    s.domStill 1 = false ∧ (let b := s.base n
    let x : FeedSample := { ang := ang, spd := spd, iang := iang, flg := flg }
    let live := b.st = .run ∨ b.st = .unref
    b.st ≠ .disabled ∧
    s.phsEdge n = { sample := some x } ∧
    flg.getLsbD 0 = true ∧
    (flg.getLsbD 3 = false ∨ s.btype n ≠ 0) ∧
    live)) ∧
    (let s : State := { edge := { phs := [(0, { sample := (some { ang := 2147483647#32, spd := 0#32, iang := 0#32, flg := 1#8 }) })] }, bases := [(0, { st := .run })] }
    let n : Nat := 0
    let ang : Word := 2147483647#32
    let spd : Word := 0#32
    let iang : Word := 0#32
    let flg : BitVec 8 := 1#8
    n < 16 ∧
    s.isTime n = false ∧
    s.domStill 1 = false ∧ (let b := s.base n
    let x : FeedSample := { ang := ang, spd := spd, iang := iang, flg := flg }
    let live := b.st = .run ∨ b.st = .unref
    let on := b.ai + BitVec.ofInt 80 b.vel.toInt
    b.st ≠ .disabled ∧
    s.phsEdge n = { sample := some x } ∧
    flg.getLsbD 0 = true ∧ (let neg := s.btype n = 1 ∧ spd.toInt < 0
    let v : Int := if flg.getLsbD 1 = true ∨ flg.getLsbD 2 = true ∨ neg then 0
              else max (-2 ^ 31) (min ((spd.toInt * ((s.bReg n 4).toNat : Int)) / 2 ^ 16) (2 ^ 31 - 1))
    let f : Int := ((ang + s.bReg n 0x3C).toNat : Int) * 2 ^ 16 + (3 + (fld (s.bcfg n) 8 8 : Int)) * v
    let vmin : Int := (fld (s.bReg n 0x38) 0 31 : Int)
    let a1 := b.ai + (BitVec.ofInt 48 f - b.ai.setWidth 48).signExtend 80
    let dir : Dir := if vmin < v then .fwd else if v < -vmin then .rev else .still
    let j : Int := (fld (s.bReg n 0x0C) 0 31 : Int) * 2 ^ 16
    let ch := (a1 - b.ai).toInt
    let ex := (a1 - on).toInt
    let jump := (dir = .fwd ∧ (ch < -j ∨ j < ex)) ∨ (dir = .rev ∧ (j < ch ∨ ex < -j)) ∨ (dir = .still ∧ (ex < -j ∨ j < ex))
    (flg.getLsbD 3 = false ∨ s.btype n ≠ 0) ∧
    live ∧
    jump))) ∧
    (let s : State := { edge := { phs := [(0, { sample := (some { ang := 2147483647#32, spd := 0#32, iang := 0#32, flg := 1#8 }) })] }, bases := [(0, { st := .run })] }
    let n : Nat := 0
    let ang : Word := 2147483647#32
    let spd : Word := 0#32
    let iang : Word := 0#32
    let flg : BitVec 8 := 1#8
    n < 16 ∧
    s.isTime n = false ∧
    s.domStill 1 = false ∧ (let b := s.base n
    let x : FeedSample := { ang := ang, spd := spd, iang := iang, flg := flg }
    let live := b.st = .run ∨ b.st = .unref
    let on := b.ai + BitVec.ofInt 80 b.vel.toInt
    b.st ≠ .disabled ∧
    s.phsEdge n = { sample := some x } ∧
    flg.getLsbD 0 = true ∧ (let neg := s.btype n = 1 ∧ spd.toInt < 0
    let v : Int := if flg.getLsbD 1 = true ∨ flg.getLsbD 2 = true ∨ neg then 0
              else max (-2 ^ 31) (min ((spd.toInt * ((s.bReg n 4).toNat : Int)) / 2 ^ 16) (2 ^ 31 - 1))
    let f : Int := ((ang + s.bReg n 0x3C).toNat : Int) * 2 ^ 16 + (3 + (fld (s.bcfg n) 8 8 : Int)) * v
    let vmin : Int := (fld (s.bReg n 0x38) 0 31 : Int)
    let a1 := b.ai + (BitVec.ofInt 48 f - b.ai.setWidth 48).signExtend 80
    let dir : Dir := if vmin < v then .fwd else if v < -vmin then .rev else .still
    let turns := dir ≠ .still ∧ decide (dir = .rev) ≠ b.lastRev
    let j : Int := (fld (s.bReg n 0x0C) 0 31 : Int) * 2 ^ 16
    let ch := (a1 - b.ai).toInt
    let ex := (a1 - on).toInt
    let jump := (dir = .fwd ∧ (ch < -j ∨ j < ex)) ∨ (dir = .rev ∧ (j < ch ∨ ex < -j)) ∨ (dir = .still ∧ (ex < -j ∨ j < ex))
    (flg.getLsbD 3 = false ∨ s.btype n ≠ 0) ∧
    live ∧
    (jump ∨ turns)))) := by
  refine ⟨?_, ?_, ?_, ?_, ?_, ?_, ?_, ?_⟩ <;> decide +kernel

theorem witness_SamplesAndExtrapolation_3 :
    (let s : State := { edge := { phs := [(0, { sample := (some { ang := 2147483647#32, spd := 0#32, iang := 0#32, flg := 1#8 }) })] }, bases := [(0, { st := .held })] }
    let n : Nat := 0
    let ang : Word := 2147483647#32
    let spd : Word := 0#32
    let iang : Word := 0#32
    let flg : BitVec 8 := 1#8
    n < 16 ∧
    s.isTime n = false ∧
    s.domStill 1 = false ∧ (let b := s.base n
    let x : FeedSample := { ang := ang, spd := spd, iang := iang, flg := flg }
    b.st ≠ .disabled ∧
    s.phsEdge n = { sample := some x } ∧
    flg.getLsbD 0 = true ∧
    (flg.getLsbD 3 = false ∨ s.btype n ≠ 0) ∧
    b.st = .held ∧
    b.ihold = false)) ∧
    (let s : State := { edge := { phs := [(0, { sample := (some { ang := 2147483647#32, spd := 0#32, iang := 0#32, flg := 1#8 }) })] }, bases := [(0, { st := .held, ihold := true })] }
    let n : Nat := 0
    let ang : Word := 2147483647#32
    let spd : Word := 0#32
    let iang : Word := 0#32
    let flg : BitVec 8 := 1#8
    n < 16 ∧
    s.isTime n = false ∧
    s.domStill 1 = false ∧ (let b := s.base n
    let x : FeedSample := { ang := ang, spd := spd, iang := iang, flg := flg }
    b.st ≠ .disabled ∧
    s.phsEdge n = { sample := some x } ∧
    flg.getLsbD 0 = true ∧
    (flg.getLsbD 3 = false ∨ s.btype n ≠ 0) ∧
    b.st = .held ∧
    b.ihold = true)) ∧
    (let s : State := { edge := { phs := [(0, { sample := (some { ang := 2147483647#32, spd := 0#32, iang := 0#32, flg := 9#8 }) })] }, bases := [(0, { st := .unref })] }
    let n : Nat := 0
    let ang : Word := 2147483647#32
    let spd : Word := 0#32
    let iang : Word := 0#32
    let flg : BitVec 8 := 9#8
    n < 16 ∧
    s.isTime n = false ∧
    s.domStill 1 = false ∧ (let b := s.base n
    let x : FeedSample := { ang := ang, spd := spd, iang := iang, flg := flg }
    b.st ≠ .disabled ∧
    s.phsEdge n = { sample := some x } ∧
    flg.getLsbD 0 = true ∧
    flg.getLsbD 3 = true ∧
    s.btype n = 0 ∧
    b.st = .unref)) ∧
    (let s : State := { edge := { phs := [(0, { sample := (some { ang := 2147483647#32, spd := 0#32, iang := 0#32, flg := 9#8 }) })] }, bases := [(0, { st := .run })] }
    let n : Nat := 0
    let ang : Word := 2147483647#32
    let spd : Word := 0#32
    let iang : Word := 0#32
    let flg : BitVec 8 := 9#8
    n < 16 ∧
    s.isTime n = false ∧
    s.domStill 1 = false ∧ (let b := s.base n
    let x : FeedSample := { ang := ang, spd := spd, iang := iang, flg := flg }
    b.st ≠ .disabled ∧
    s.phsEdge n = { sample := some x } ∧
    flg.getLsbD 0 = true ∧
    flg.getLsbD 3 = true ∧
    s.btype n = 0 ∧
    b.st ≠ .unref ∧
    bit (s.bcfg n) 6 = false)) ∧
    (let s : State := { regs := [(4096, 64#32)], edge := { phs := [(0, { sample := (some { ang := 2147483647#32, spd := 0#32, iang := 0#32, flg := 9#8 }) })] }, bases := [(0, { st := .run })] }
    let n : Nat := 0
    let ang : Word := 2147483647#32
    let spd : Word := 0#32
    let iang : Word := 0#32
    let flg : BitVec 8 := 9#8
    n < 16 ∧
    s.isTime n = false ∧
    s.domStill 1 = false ∧ (let b := s.base n
    let x : FeedSample := { ang := ang, spd := spd, iang := iang, flg := flg }
    b.st ≠ .disabled ∧
    s.phsEdge n = { sample := some x } ∧
    flg.getLsbD 0 = true ∧
    flg.getLsbD 3 = true ∧
    s.btype n = 0 ∧
    b.st ≠ .unref ∧
    bit (s.bcfg n) 6 = true)) ∧
    (let s : State := { regs := [(4096, 64#32)], edge := { phs := [(0, { sample := (some { ang := 2147483647#32, spd := 0#32, iang := 0#32, flg := 9#8 }) })] }, bases := [(0, { st := .run })] }
    let n : Nat := 0
    let ang : Word := 2147483647#32
    let spd : Word := 0#32
    let iang : Word := 0#32
    let flg : BitVec 8 := 9#8
    n < 16 ∧
    s.isTime n = false ∧
    s.domStill 1 = false ∧ (let b := s.base n
    let x : FeedSample := { ang := ang, spd := spd, iang := iang, flg := flg }
    b.st ≠ .disabled ∧
    s.phsEdge n = { sample := some x } ∧
    flg.getLsbD 0 = true ∧ (let neg := s.btype n = 1 ∧ spd.toInt < 0
    let v : Int := if flg.getLsbD 1 = true ∨ flg.getLsbD 2 = true ∨ neg then 0
              else max (-2 ^ 31) (min ((spd.toInt * ((s.bReg n 4).toNat : Int)) / 2 ^ 16) (2 ^ 31 - 1))
    let vmin : Int := (fld (s.bReg n 0x38) 0 31 : Int)
    let dir : Dir := if vmin < v then .fwd else if v < -vmin then .rev else .still
    flg.getLsbD 3 = true ∧
    s.btype n = 0 ∧ (let back := if dir = .still then b.lastRev else decide (dir = .rev)
    let dev := iang + s.bReg n 0x3C - (if back then s.bReg n 0x10 + s.bReg n 0x18 else s.bReg n 0x10)
    let tol := fld (s.bReg n 0x14) 0 31
    b.st ≠ .unref ∧
    bit (s.bcfg n) 6 = true ∧
    dev.toInt.natAbs ≤ tol)))) ∧
    (let s : State := { regs := [(4096, 64#32)], edge := { phs := [(0, { sample := (some { ang := 2147483647#32, spd := 0#32, iang := 1073741824#32, flg := 9#8 }) })] }, bases := [(0, { st := .run })] }
    let n : Nat := 0
    let ang : Word := 2147483647#32
    let spd : Word := 0#32
    let iang : Word := 1073741824#32
    let flg : BitVec 8 := 9#8
    n < 16 ∧
    s.isTime n = false ∧
    s.domStill 1 = false ∧ (let b := s.base n
    let x : FeedSample := { ang := ang, spd := spd, iang := iang, flg := flg }
    b.st ≠ .disabled ∧
    s.phsEdge n = { sample := some x } ∧
    flg.getLsbD 0 = true ∧ (let neg := s.btype n = 1 ∧ spd.toInt < 0
    let v : Int := if flg.getLsbD 1 = true ∨ flg.getLsbD 2 = true ∨ neg then 0
              else max (-2 ^ 31) (min ((spd.toInt * ((s.bReg n 4).toNat : Int)) / 2 ^ 16) (2 ^ 31 - 1))
    let vmin : Int := (fld (s.bReg n 0x38) 0 31 : Int)
    let dir : Dir := if vmin < v then .fwd else if v < -vmin then .rev else .still
    flg.getLsbD 3 = true ∧
    s.btype n = 0 ∧ (let back := if dir = .still then b.lastRev else decide (dir = .rev)
    let dev := iang + s.bReg n 0x3C - (if back then s.bReg n 0x10 + s.bReg n 0x18 else s.bReg n 0x10)
    let tol := fld (s.bReg n 0x14) 0 31
    b.st ≠ .unref ∧
    bit (s.bcfg n) 6 = true ∧
    tol < dev.toInt.natAbs)))) ∧
    (let s : State := { regs := [(4096, 64#32)], edge := { phs := [(0, { sample := (some { ang := 2147483647#32, spd := 0#32, iang := 1073741824#32, flg := 9#8 }) })] }, bases := [(0, { st := .held })] }
    let n : Nat := 0
    let ang : Word := 2147483647#32
    let spd : Word := 0#32
    let iang : Word := 1073741824#32
    let flg : BitVec 8 := 9#8
    n < 16 ∧
    s.isTime n = false ∧
    s.domStill 1 = false ∧ (let b := s.base n
    let x : FeedSample := { ang := ang, spd := spd, iang := iang, flg := flg }
    b.st ≠ .disabled ∧
    s.phsEdge n = { sample := some x } ∧
    flg.getLsbD 0 = true ∧ (let neg := s.btype n = 1 ∧ spd.toInt < 0
    let v : Int := if flg.getLsbD 1 = true ∨ flg.getLsbD 2 = true ∨ neg then 0
              else max (-2 ^ 31) (min ((spd.toInt * ((s.bReg n 4).toNat : Int)) / 2 ^ 16) (2 ^ 31 - 1))
    let vmin : Int := (fld (s.bReg n 0x38) 0 31 : Int)
    let dir : Dir := if vmin < v then .fwd else if v < -vmin then .rev else .still
    flg.getLsbD 3 = true ∧
    s.btype n = 0 ∧ (let back := if dir = .still then b.lastRev else decide (dir = .rev)
    let dev := iang + s.bReg n 0x3C - (if back then s.bReg n 0x10 + s.bReg n 0x18 else s.bReg n 0x10)
    let tol := fld (s.bReg n 0x14) 0 31
    b.st ≠ .unref ∧
    bit (s.bcfg n) 6 = true ∧
    tol < dev.toInt.natAbs ∧
    b.st = .held)))) := by
  refine ⟨?_, ?_, ?_, ?_, ?_, ?_, ?_, ?_⟩ <;> decide +kernel

theorem witness_SamplesAndExtrapolation_4 :
    (let s : State := { regs := [(4096, 80#32)], edge := { phs := [(0, { sample := (some { ang := 2147483647#32, spd := 0#32, iang := 1073741824#32, flg := 9#8 }) })] }, bases := [(0, { st := .run })] }
    let n : Nat := 0
    let ang : Word := 2147483647#32
    let spd : Word := 0#32
    let iang : Word := 1073741824#32
    let flg : BitVec 8 := 9#8
    n < 16 ∧
    s.isTime n = false ∧
    s.domStill 1 = false ∧ (let b := s.base n
    let x : FeedSample := { ang := ang, spd := spd, iang := iang, flg := flg }
    b.st ≠ .disabled ∧
    s.phsEdge n = { sample := some x } ∧
    flg.getLsbD 0 = true ∧ (let neg := s.btype n = 1 ∧ spd.toInt < 0
    let v : Int := if flg.getLsbD 1 = true ∨ flg.getLsbD 2 = true ∨ neg then 0
              else max (-2 ^ 31) (min ((spd.toInt * ((s.bReg n 4).toNat : Int)) / 2 ^ 16) (2 ^ 31 - 1))
    let vmin : Int := (fld (s.bReg n 0x38) 0 31 : Int)
    let dir : Dir := if vmin < v then .fwd else if v < -vmin then .rev else .still
    flg.getLsbD 3 = true ∧
    s.btype n = 0 ∧ (let back := if dir = .still then b.lastRev else decide (dir = .rev)
    let dev := iang + s.bReg n 0x3C - (if back then s.bReg n 0x10 + s.bReg n 0x18 else s.bReg n 0x10)
    let tol := fld (s.bReg n 0x14) 0 31
    b.st ≠ .unref ∧
    bit (s.bcfg n) 6 = true ∧
    tol < dev.toInt.natAbs ∧
    b.st = .run ∧
    fld (s.bcfg n) 4 2 = 1)))) ∧
    (let s : State := { regs := [(4096, 96#32)], edge := { phs := [(0, { sample := (some { ang := 2147483647#32, spd := 0#32, iang := 1073741824#32, flg := 9#8 }) })] }, bases := [(0, { st := .run })] }
    let n : Nat := 0
    let ang : Word := 2147483647#32
    let spd : Word := 0#32
    let iang : Word := 1073741824#32
    let flg : BitVec 8 := 9#8
    n < 16 ∧
    s.isTime n = false ∧
    s.domStill 1 = false ∧ (let b := s.base n
    let x : FeedSample := { ang := ang, spd := spd, iang := iang, flg := flg }
    b.st ≠ .disabled ∧
    s.phsEdge n = { sample := some x } ∧
    flg.getLsbD 0 = true ∧ (let neg := s.btype n = 1 ∧ spd.toInt < 0
    let v : Int := if flg.getLsbD 1 = true ∨ flg.getLsbD 2 = true ∨ neg then 0
              else max (-2 ^ 31) (min ((spd.toInt * ((s.bReg n 4).toNat : Int)) / 2 ^ 16) (2 ^ 31 - 1))
    let vmin : Int := (fld (s.bReg n 0x38) 0 31 : Int)
    let dir : Dir := if vmin < v then .fwd else if v < -vmin then .rev else .still
    flg.getLsbD 3 = true ∧
    s.btype n = 0 ∧ (let back := if dir = .still then b.lastRev else decide (dir = .rev)
    let dev := iang + s.bReg n 0x3C - (if back then s.bReg n 0x10 + s.bReg n 0x18 else s.bReg n 0x10)
    let tol := fld (s.bReg n 0x14) 0 31
    b.st ≠ .unref ∧
    bit (s.bcfg n) 6 = true ∧
    tol < dev.toInt.natAbs ∧
    b.st = .run ∧
    fld (s.bcfg n) 4 2 = 2)))) ∧
    (let s : State := { regs := [(4096, 64#32)], edge := { phs := [(0, { sample := (some { ang := 2147483647#32, spd := 0#32, iang := 1073741824#32, flg := 9#8 }) })] }, bases := [(0, { st := .run })] }
    let n : Nat := 0
    let ang : Word := 2147483647#32
    let spd : Word := 0#32
    let iang : Word := 1073741824#32
    let flg : BitVec 8 := 9#8
    n < 16 ∧
    s.isTime n = false ∧
    s.domStill 1 = false ∧ (let b := s.base n
    let x : FeedSample := { ang := ang, spd := spd, iang := iang, flg := flg }
    b.st ≠ .disabled ∧
    s.phsEdge n = { sample := some x } ∧
    flg.getLsbD 0 = true ∧ (let neg := s.btype n = 1 ∧ spd.toInt < 0
    let v : Int := if flg.getLsbD 1 = true ∨ flg.getLsbD 2 = true ∨ neg then 0
              else max (-2 ^ 31) (min ((spd.toInt * ((s.bReg n 4).toNat : Int)) / 2 ^ 16) (2 ^ 31 - 1))
    let vmin : Int := (fld (s.bReg n 0x38) 0 31 : Int)
    let dir : Dir := if vmin < v then .fwd else if v < -vmin then .rev else .still
    flg.getLsbD 3 = true ∧
    s.btype n = 0 ∧ (let back := if dir = .still then b.lastRev else decide (dir = .rev)
    let dev := iang + s.bReg n 0x3C - (if back then s.bReg n 0x10 + s.bReg n 0x18 else s.bReg n 0x10)
    let tol := fld (s.bReg n 0x14) 0 31
    b.st ≠ .unref ∧
    bit (s.bcfg n) 6 = true ∧
    tol < dev.toInt.natAbs ∧
    b.st = .run ∧
    fld (s.bcfg n) 4 2 = 0)))) := by
  refine ⟨?_, ?_, ?_⟩ <;> decide +kernel

theorem witness_BaseEvents :
    (let s : State := {}
    let n : Nat := 0
    n < 16 ∧
    s.domStill 1 = false ∧
    s.snt.warmDue = false) ∧
    (let s : State := { rank := 1000000, edge := { phs := [(0, { loss := true })] }, bases := [(0, { st := .unref })] }
    let n : Nat := 0
    n < 16 ∧
    s.domStill 1 = false ∧
    s.snt.warmDue = false ∧ (let b := s.base n
    s.isTime n = false ∧
    (b.st = .run ∨ b.st = .unref) ∧
    s.phsEdge n = { loss := true } ∧
    fld (s.bcfg n) 16 12 ≠ 0 ∧
    b.lastValid + 64 * fld (s.bcfg n) 16 12 < s.rank)) ∧
    (let s : State := { edge := { phs := [(1, { loss := true })] }, bases := [(1, { st := .unref })] }
    let n : Nat := 1
    n < 16 ∧
    s.domStill 1 = false ∧
    s.snt.warmDue = false ∧ (let b := s.base n
    s.isTime n = false ∧
    (b.st = .run ∨ b.st = .unref) ∧
    s.phsEdge n = { loss := true } ∧
    (fld (s.bcfg n) 16 12 = 0 ∨ s.rank ≤ b.lastValid + 64 * fld (s.bcfg n) 16 12))) ∧
    (let s : State := { regs := [(4160, 89#32)], edge := { phs := [(1, { noIndex := true })] }, bases := [(1, { st := .run, ai := 37778931862957161709568#80 })] }
    let n : Nat := 1
    n < 16 ∧
    s.domStill 1 = false ∧
    s.snt.warmDue = false ∧ (let b := s.base n
    let on := b.ai + BitVec.ofInt 80 b.vel.toInt
    s.btype n = 0 ∧
    bit (s.bcfg n) 6 = true ∧
    (b.st = .run ∨ b.st = .unref) ∧
    s.phsEdge n = { noIndex := true } ∧ (let beyond := 2 ^ 32 + fld (s.bReg n 0x14) 0 31 < (angTu on - angTu b.aidx).toInt.natAbs
    beyond ∧
    fld (s.bcfg n) 4 2 = 1))) ∧
    (let s : State := { regs := [(4160, 1691614449#32)], edge := { phs := [(1, { noIndex := true })] }, bases := [(1, { st := .run })] }
    let n : Nat := 1
    n < 16 ∧
    s.domStill 1 = false ∧
    s.snt.warmDue = false ∧ (let b := s.base n
    let on := b.ai + BitVec.ofInt 80 b.vel.toInt
    s.btype n = 0 ∧
    bit (s.bcfg n) 6 = true ∧
    (b.st = .run ∨ b.st = .unref) ∧
    s.phsEdge n = { noIndex := true } ∧ (let beyond := 2 ^ 32 + fld (s.bReg n 0x14) 0 31 < (angTu on - angTu b.aidx).toInt.natAbs
    ¬beyond))) ∧
    (let s : State := { bases := [(0, { st := .run })] }
    let n : Nat := 0
    n < 16 ∧
    s.domStill 1 = false ∧
    s.snt.warmDue = false ∧ (let b := s.base n
    PortActs s 1 ∧
    b.st ≠ .disabled)) ∧
    (let s : State := {}
    let n : Nat := 0
    n < 16 ∧
    s.domStill 1 = false ∧
    s.snt.warmDue = false ∧ (let b := s.base n
    PortActs s 1 ∧
    b.st = .disabled)) ∧
    (let s : State := { bases := [(0, { st := .held, ihold := true })] }
    let n : Nat := 0
    n < 16 ∧
    s.domStill 1 = false ∧
    s.snt.warmDue = false ∧ (let b := s.base n
    PortActs s 1 ∧
    b.st = .held ∧
    b.ihold = true ∧
    b.fheld = false ∧
    (s.btype n = 0 → bit (s.bcfg n) 3 = true → b.refd = true))) ∧
    (let s : State := {}
    let n : Nat := 0
    n < 16 ∧
    s.domStill 1 = false ∧
    s.snt.warmDue = false ∧ (let b := s.base n
    PortActs s 1 ∧
    b.st ≠ .held)) := by
  refine ⟨?_, ?_, ?_, ?_, ?_, ?_, ?_, ?_, ?_⟩
  · decide +kernel
  · decide +kernel
  · decide +kernel
  · decide +kernel
  · decide +kernel
  · unfold PortActs; decide +kernel
  · unfold PortActs; decide +kernel
  · unfold PortActs; decide +kernel
  · unfold PortActs; decide +kernel

theorem witness_ArmsContext :
    (let s : State := {}
    let k : Nat := 0
    let n := s.cbase k
    (s.base n).st ≠ .run) ∧
    (let s : State := { bases := [(0, { st := .run, dir := .fwd })] }
    let k : Nat := 0
    let cmp : W64 := 0#64
    let ap : W64 := 1#64
    let n := s.cbase k
    let w := s.tw 0x0A k 5
    let lead := if s.cra k = true then (s.tw 0x0A k 4).setWidth 64 else 0#64
    let time := s.isTime n = true
    let rev := ¬time ∧ s.bdir n = .rev
    let still := ¬time ∧ s.bdir n = .still
    let d0 := if time then (cmp - ap).toInt else if rev then (lo32 ap - lo32 cmp).toInt else (lo32 cmp - lo32 ap).toInt
    let d := if ¬time ∧ d0 < 0 ∧ (w.toNat : Int) < -d0 then d0 + 2 ^ 32 else d0
    (s.base n).st = .run ∧
    ¬still ∧
    0 < d ∧
    (s.cra k = true → (lead.toNat : Int) < d)) ∧
    (let s : State := { tbl := [(5242880, 33#32), (5242884, 50#32)], bases := [(0, { st := .run, dir := .fwd })], ldr := { phase := .opened } }
    let k : Nat := 0
    let cmp : W64 := 1#64
    let ap : W64 := 0#64
    let n := s.cbase k
    let p := 0x4800 + k
    let w := s.tw 0x0A k 5
    let lead := if s.cra k = true then (s.tw 0x0A k 4).setWidth 64 else 0#64
    let time := s.isTime n = true
    let rev := ¬time ∧ s.bdir n = .rev
    let still := ¬time ∧ s.bdir n = .still
    let d0 := if time then (cmp - ap).toInt else if rev then (lo32 ap - lo32 cmp).toInt else (lo32 cmp - lo32 ap).toInt
    let d := if ¬time ∧ d0 < 0 ∧ (w.toNat : Int) < -d0 then d0 + 2 ^ 32 else d0
    let ready := k < 4096 ∧ s.serving = true ∧ (s.src p).q.length < 2 ∧ s.crep k = false
    (s.base n).st = .run ∧
    ¬still ∧
    0 < d ∧
    s.cra k = true ∧
    d ≤ (lead.toNat : Int) ∧
    ready) ∧
    (let s : State := { bases := [(0, { st := .run, dir := .fwd })], ldr := { phase := .opened } }
    let k : Nat := 0
    let cmp : W64 := 0#64
    let ap : W64 := 0#64
    let n := s.cbase k
    let p := 0x4800 + k
    let w := s.tw 0x0A k 5
    let time := s.isTime n = true
    let rev := ¬time ∧ s.bdir n = .rev
    let still := ¬time ∧ s.bdir n = .still
    let d0 := if time then (cmp - ap).toInt else if rev then (lo32 ap - lo32 cmp).toInt else (lo32 cmp - lo32 ap).toInt
    let d := if ¬time ∧ d0 < 0 ∧ (w.toNat : Int) < -d0 then d0 + 2 ^ 32 else d0
    let ready := k < 4096 ∧ s.serving = true ∧ (s.src p).q.length < 2 ∧ s.crep k = false
    (s.base n).st = .run ∧
    ¬still ∧
    d ≤ 0 ∧
    ready) ∧
    (let s : State := { bases := [(0, { st := .run })], ldr := { phase := .opened } }
    let k : Nat := 0
    let cmp : W64 := 0#64
    let ap : W64 := 0#64
    let n := s.cbase k
    let p := 0x4800 + k
    let time := s.isTime n = true
    let still := ¬time ∧ s.bdir n = .still
    let df := (lo32 cmp - lo32 ap).setWidth 64
    let ready := k < 4096 ∧ s.serving = true ∧ (s.src p).q.length < 2 ∧ s.crep k = false
    (s.base n).st = .run ∧
    still ∧
    df = 0 ∧
    ready) ∧
    (let s : State := { tbl := [(5242880, 33#32), (5242884, 50#32)], bases := [(0, { st := .run })], ldr := { phase := .opened } }
    let k : Nat := 0
    let cmp : W64 := 1#64
    let ap : W64 := 0#64
    let n := s.cbase k
    let p := 0x4800 + k
    let lead := if s.cra k = true then (s.tw 0x0A k 4).setWidth 64 else 0#64
    let time := s.isTime n = true
    let still := ¬time ∧ s.bdir n = .still
    let df := (lo32 cmp - lo32 ap).setWidth 64
    let ready := k < 4096 ∧ s.serving = true ∧ (s.src p).q.length < 2 ∧ s.crep k = false
    (s.base n).st = .run ∧
    still ∧
    df ≠ 0 ∧
    s.cra k = true ∧
    df.toNat ≤ lead.toNat ∧
    ready) ∧
    (let s : State := { tbl := [(5242880, 33#32), (5242884, 50#32)], bases := [(0, { st := .run })], ldr := { phase := .opened } }
    let k : Nat := 0
    let cmp : W64 := 0#64
    let ap : W64 := 1#64
    let n := s.cbase k
    let p := 0x4800 + k
    let lead := if s.cra k = true then (s.tw 0x0A k 4).setWidth 64 else 0#64
    let time := s.isTime n = true
    let still := ¬time ∧ s.bdir n = .still
    let df := (lo32 cmp - lo32 ap).setWidth 64
    let dr := (lo32 ap - lo32 cmp).setWidth 64
    let ready := k < 4096 ∧ s.serving = true ∧ (s.src p).q.length < 2 ∧ s.crep k = false
    (s.base n).st = .run ∧
    still ∧
    df ≠ 0 ∧
    s.cra k = true ∧
    lead.toNat < df.toNat ∧
    dr.toNat ≤ lead.toNat ∧
    ready) ∧
    (let s : State := { bases := [(0, { st := .run })] }
    let k : Nat := 0
    let cmp : W64 := 0#64
    let ap : W64 := 1#64
    let n := s.cbase k
    let lead := if s.cra k = true then (s.tw 0x0A k 4).setWidth 64 else 0#64
    let time := s.isTime n = true
    let still := ¬time ∧ s.bdir n = .still
    let df := (lo32 cmp - lo32 ap).setWidth 64
    let dr := (lo32 ap - lo32 cmp).setWidth 64
    (s.base n).st = .run ∧
    still ∧
    df ≠ 0 ∧
    (s.cra k = true → lead.toNat < df.toNat ∧ lead.toNat < dr.toNat)) := by
  refine ⟨?_, ?_, ?_, ?_, ?_, ?_, ?_, ?_⟩ <;> decide +kernel

theorem witness_LaunchesAndReleases :
    (let s : State := { rank := 1000000, bases := [(0, { st := .run })], ctxs := [(0, { entries := [{ ang := 100#64, tgt := 120#64, dir := .fwd, both := false, taken := (some 999998) }] })], ldr := { phase := .opened } }
    let n : Nat := 0
    let k : Nat := 0
    let e : LEntry := { ang := 100#64, tgt := 120#64, dir := .fwd, both := false, taken := (some 999998) }
    n < 16 ∧
    k < 4096 ∧
    s.sweeps n = true ∧
    s.ripeLaunches n = [(k, e)] ∧
    s.serving = true ∧
    s.crep k = false ∧
    (s.src (0x4800 + k)).q.length < 2 ∧
    s.snt.warmDue = false ∧ (let d := dist e.dir e.takenAp e.tgt
    (s.isTime n = true ∨ -((s.ctx k).lw.toNat : Int) ≤ d) ∧
    s.cra k = false)) ∧
    (let s : State := { rank := 1, tbl := [(819200, 8192#32), (5242880, 33#32)], bases := [(0, { st := .run })], ctxs := [(0, { entries := [{ ang := 1#64, tgt := 1#64, dir := .fwd, both := false, taken := (some 0) }] })], ldr := { phase := .opened } }
    let n : Nat := 0
    let k : Nat := 0
    let e : LEntry := { ang := 1#64, tgt := 1#64, dir := .fwd, both := false, taken := (some 0) }
    n < 16 ∧
    k < 4096 ∧
    s.sweeps n = true ∧
    s.ripeLaunches n = [(k, e)] ∧
    s.serving = true ∧
    s.crep k = false ∧
    (s.src (0x4800 + k)).q.length < 2 ∧
    s.snt.warmDue = false ∧ (let d := dist e.dir e.takenAp e.tgt
    let late := if e.ang = e.tgt then s.isTime n && e.behind else decide (d ≤ 0)
    (s.isTime n = true ∨ -((s.ctx k).lw.toNat : Int) ≤ d) ∧
    s.cra k = true ∧
    s.toPool (0x4800 + k) = true ∧
    e.both = false ∧
    late = false ∧
    0 < dist e.dir (s.base n).ap e.tgt)) ∧
    (let s : State := { rank := 1, tbl := [(819200, 8192#32), (5242880, 33#32)], bases := [(0, { st := .run })], ctxs := [(0, { entries := [{ ang := 1#64, tgt := 0#64, dir := .fwd, both := false, taken := (some 0) }] })], ldr := { phase := .opened } }
    let n : Nat := 0
    let k : Nat := 0
    let e : LEntry := { ang := 1#64, tgt := 0#64, dir := .fwd, both := false, taken := (some 0) }
    n < 16 ∧
    k < 4096 ∧
    s.sweeps n = true ∧
    s.ripeLaunches n = [(k, e)] ∧
    s.serving = true ∧
    s.crep k = false ∧
    (s.src (0x4800 + k)).q.length < 2 ∧
    s.snt.warmDue = false ∧ (let d := dist e.dir e.takenAp e.tgt
    (s.isTime n = true ∨ -((s.ctx k).lw.toNat : Int) ≤ d) ∧
    s.cra k = true ∧
    s.toPool (0x4800 + k) = true ∧
    dist e.dir (s.base n).ap e.tgt ≤ 0)) ∧
    (let s : State := { rank := 1000000, srcs := [(18432, { st := .active, q := [{ occ := (some 50) }] })], bases := [(0, { st := .run })], occs := [(50, { id := 50, ctx := 0, tgt := 100#64, dir := .fwd, either := false, raised := 0, late := false, taken := (some 999996) })] }
    let n : Nat := 0
    let o : Occ := { id := 50, ctx := 0, tgt := 100#64, dir := .fwd, either := false, raised := 0, late := false, taken := (some 999996) }
    s.domStill 1 = false ∧
    s.snt.warmDue = false ∧
    o.ctx < 4096 ∧
    mFind s.occs o.id = some o ∧
    (s.src (0x4800 + o.ctx)).st = .active ∧
    (∃ i ∈ (s.src (0x4800 + o.ctx)).q, i.occ = some o.id) ∧
    n < 16 ∧
    s.sweeps n = true ∧
    ((s.occs.map Prod.snd).filter fun o => decide (s.cbase o.ctx = n) && o.entry && s.ripe o.taken) = [o]) ∧
    (let s : State := { srcs := [(18432, { st := .active, q := [{ occ := (some 50) }] })], occs := [(50, { id := 50, ctx := 0, tgt := 100#64, dir := .fwd, either := false, raised := 0, late := false, engine := (some 3), places := [(.write 0x00004000#32 0x00000007#32)] })] }
    let o : Occ := { id := 50, ctx := 0, tgt := 100#64, dir := .fwd, either := false, raised := 0, late := false, engine := (some 3), places := [(.write 0x00004000#32 0x00000007#32)] }
    s.domStill 1 = false ∧
    s.snt.warmDue = false ∧
    o.ctx < 4096 ∧
    mFind s.occs o.id = some o ∧
    (s.src (0x4800 + o.ctx)).st = .active ∧
    (∃ i ∈ (s.src (0x4800 + o.ctx)).q, i.occ = some o.id) ∧ (let e : Nat := 3
    let a : BitVec 32 := 16384#32
    let d : BitVec 32 := 7#32
    o.engine = some e ∧
    o.places = [.write a d] ∧
    (s.cluster (e / 16)).queue = [])) ∧
    (let s : State := { srcs := [(18432, { st := .active, q := [{ occ := (some 50) }] })], occs := [(50, { id := 50, ctx := 0, tgt := 100#64, dir := .fwd, either := false, raised := 0, late := false, engine := (some 3), places := [(.write 0x00004000#32 0x00000007#32)] })] }
    let o : Occ := { id := 50, ctx := 0, tgt := 100#64, dir := .fwd, either := false, raised := 0, late := false, engine := (some 3), places := [(.write 0x00004000#32 0x00000007#32)] }
    s.domStill 1 = false ∧
    s.snt.warmDue = false ∧
    o.ctx < 4096 ∧
    mFind s.occs o.id = some o ∧
    (s.src (0x4800 + o.ctx)).st = .active ∧
    (∃ i ∈ (s.src (0x4800 + o.ctx)).q, i.occ = some o.id) ∧ (let e : Nat := 3
    let a : BitVec 32 := 16384#32
    let d : BitVec 32 := 7#32
    o.engine = some e ∧
    o.places = [.write a d] ∧
    (s.cluster (e / 16)).queue = [] ∧ (let c : Nat := 3
    c ≠ e / 16))) ∧
    (let s : State := { rank := 1000000, tbl := [(5242912, 289#32)], srcs := [(18434, { st := .active, q := [{ occ := (some 50) }] })], occs := [(50, { id := 50, ctx := 2, tgt := 100#64, dir := .fwd, either := false, raised := 0, late := false, hlim := 1 })] }
    let o : Occ := { id := 50, ctx := 2, tgt := 100#64, dir := .fwd, either := false, raised := 0, late := false, hlim := 1 }
    s.domStill 1 = false ∧
    s.snt.warmDue = false ∧
    o.ctx < 4096 ∧
    mFind s.occs o.id = some o ∧
    (s.src (0x4800 + o.ctx)).st = .active ∧
    (∃ i ∈ (s.src (0x4800 + o.ctx)).q, i.occ = some o.id) ∧
    o.st = .launched ∧
    (∀ p ∈ o.places, ∃ a d, p = .write a d) ∧
    o.hlim ≠ 0 ∧
    o.raised + 64 * o.hlim ≤ s.rank ∧
    bit (s.ccfg o.ctx) 8 = true) ∧
    (let s : State := { srcs := [(18433, { st := .active, q := [{ occ := (some 50) }] })], occs := [(50, { id := 50, ctx := 1, tgt := 0#64, dir := .fwd, either := false, raised := 0, late := false })] }
    let o : Occ := { id := 50, ctx := 1, tgt := 0#64, dir := .fwd, either := false, raised := 0, late := false }
    s.domStill 1 = false ∧
    s.snt.warmDue = false ∧
    o.ctx < 4096 ∧
    mFind s.occs o.id = some o ∧
    (s.src (0x4800 + o.ctx)).st = .active ∧
    (∃ i ∈ (s.src (0x4800 + o.ctx)).q, i.occ = some o.id) ∧
    o.hlim = 0 ∧
    (∀ p ∈ o.places, ∃ a d, p = .write a d)) ∧
    (let s : State := { rank := 1000000, srcs := [(18434, { st := .active, q := [{ occ := (some 50) }] })], bases := [(0, { rebuild := (some (5#64, (999999, 0))) })], occs := [(50, { id := 50, ctx := 2, tgt := 100#64, dir := .fwd, either := false, raised := 0, late := false })] }
    let n : Nat := 0
    let o : Occ := { id := 50, ctx := 2, tgt := 100#64, dir := .fwd, either := false, raised := 0, late := false }
    s.domStill 1 = false ∧
    s.snt.warmDue = false ∧
    o.ctx < 4096 ∧
    mFind s.occs o.id = some o ∧
    (s.src (0x4800 + o.ctx)).st = .active ∧
    (∃ i ∈ (s.src (0x4800 + o.ctx)).q, i.occ = some o.id) ∧ (let snap : BitVec 64 := 5#64
    let t : Nat := 999999
    let c : Nat := 0
    n < 16 ∧
    (s.base n).rebuild = some (snap, t, c) ∧
    t + cdiv c 8 ≤ s.rank)) ∧
    (let s : State := { srcs := [(18433, { st := .active, q := [{ occ := (some 50) }] })], bases := [(0, { rebuild := (some (0#64, (0, 8))) })], occs := [(50, { id := 50, ctx := 1, tgt := 0#64, dir := .fwd, either := false, raised := 0, late := false })] }
    let n : Nat := 0
    let o : Occ := { id := 50, ctx := 1, tgt := 0#64, dir := .fwd, either := false, raised := 0, late := false }
    s.domStill 1 = false ∧
    s.snt.warmDue = false ∧
    o.ctx < 4096 ∧
    mFind s.occs o.id = some o ∧
    (s.src (0x4800 + o.ctx)).st = .active ∧
    (∃ i ∈ (s.src (0x4800 + o.ctx)).q, i.occ = some o.id) ∧ (let snap : BitVec 64 := 0#64
    let t : Nat := 0
    let c : Nat := 8
    n < 16 ∧
    (s.base n).rebuild = some (snap, t, c) ∧
    s.rank < t + cdiv c 8)) := by
  refine ⟨?_, ?_, ?_, ?_, ?_, ?_, ?_, ?_, ?_, ?_⟩ <;> decide +kernel

theorem witness_LoaderWork_1 :
    (let s : State := { ldr := { busy := true } }
    PortActs s 4 ∧
    s.snt.warmDue = false ∧ (let l := s.ldr
    (l.busy = true ∨ l.held ≠ []))) ∧
    (let s : State := { regs := [(9224, 4#32)] }
    PortActs s 4 ∧
    s.snt.warmDue = false ∧ (let l := s.ldr
    let a := (s.reg 0x2404).toNat
    let n := fld (s.reg 0x2408) 0 9
    let ranged := 1 ≤ n ∧ n ≤ 256 ∧ a + n ≤ l.nvmSize
    l.busy = false ∧
    l.held = [] ∧
    ranged)) ∧
    (let s : State := {}
    PortActs s 4 ∧
    s.snt.warmDue = false ∧ (let l := s.ldr
    let a := (s.reg 0x2404).toNat
    let n := fld (s.reg 0x2408) 0 9
    let ranged := 1 ≤ n ∧ n ≤ 256 ∧ a + n ≤ l.nvmSize
    l.busy = false ∧
    l.held = [] ∧
    ¬ranged)) ∧
    (let s : State := { regs := [(9224, 32#32)], ldr := { hdr := (some { regions := [(65536, 0), (0, 0), (0, 0), (0, 0), (131072, 65536), (1048576, 262144), (2097152, 8192), (3145728, 524288), (4194304, 4096), (5242880, 4096)] }), nvm := [(5242880, 32#8), (5242881, 0#8), (5242882, 165#8), (5242883, 0#8), (5242884, 0#8), (5242885, 0#8), (5242886, 0#8), (5242887, 0#8), (5242888, 0#8), (5242889, 0#8), (5242890, 0#8), (5242891, 0#8), (5242892, 0#8), (5242893, 0#8), (5242894, 0#8), (5242895, 0#8), (5242896, 4#8), (5242897, 119#8), (5242898, 253#8), (5242899, 142#8), (5242900, 21#8), (5242901, 188#8), (5242902, 104#8), (5242903, 168#8), (5242904, 209#8), (5242905, 206#8), (5242906, 34#8), (5242907, 120#8), (5242908, 31#8), (5242909, 219#8), (5242910, 144#8), (5242911, 222#8), (5242912, 221#8), (5242913, 215#8), (5242914, 205#8), (5242915, 246#8), (5242916, 87#8), (5242917, 229#8), (5242918, 39#8), (5242919, 249#8), (5242920, 95#8), (5242921, 201#8), (5242922, 139#8), (5242923, 190#8), (5242924, 105#8), (5242925, 24#8), (5242926, 51#8), (5242927, 126#8), (5242928, 0#8), (5242929, 0#8), (5242930, 0#8), (5242931, 0#8), (5242932, 0#8), (5242933, 0#8), (5242934, 0#8), (5242935, 0#8), (5242936, 0#8), (5242937, 0#8), (5242938, 0#8), (5242939, 0#8), (5242940, 149#8), (5242941, 229#8), (5242942, 116#8), (5242943, 243#8)] } }
    PortActs s 4 ∧
    s.snt.warmDue = false ∧ (let l := s.ldr
    let a := (s.reg 0x2404).toNat
    let n := fld (s.reg 0x2408) 0 9
    let ranged := 1 ≤ n ∧ n ≤ 256 ∧ a + n ≤ l.nvmSize
    l.busy = false ∧
    l.held = [] ∧
    ranged ∧
    a % s.pageSize + n ≤ s.pageSize ∧
    s.protectedAt a n = true)) ∧
    (let s : State := { regs := [(9224, 4#32)] }
    PortActs s 4 ∧
    s.snt.warmDue = false ∧ (let l := s.ldr
    let a := (s.reg 0x2404).toNat
    let n := fld (s.reg 0x2408) 0 9
    let ranged := 1 ≤ n ∧ n ≤ 256 ∧ a + n ≤ l.nvmSize
    l.busy = false ∧
    l.held = [] ∧
    ranged ∧
    a % s.pageSize + n ≤ s.pageSize ∧
    s.protectedAt a n = false)) ∧
    (let s : State := { regs := [(9220, 4294967295#32)], ldr := { nvmSize := 16 } }
    PortActs s 4 ∧
    s.snt.warmDue = false ∧ (let l := s.ldr
    let a := (s.reg 0x2404).toNat
    l.busy = false ∧
    l.held = [] ∧
    l.nvmSize ≤ a)) ∧
    (let s : State := { ldr := { hdr := (some { regions := [(65536, 0), (0, 0), (0, 0), (0, 0), (131072, 65536), (1048576, 262144), (2097152, 8192), (3145728, 524288), (4194304, 4096), (5242880, 4096)] }), nvm := [(5242880, 32#8), (5242881, 0#8), (5242882, 165#8), (5242883, 0#8), (5242884, 0#8), (5242885, 0#8), (5242886, 0#8), (5242887, 0#8), (5242888, 0#8), (5242889, 0#8), (5242890, 0#8), (5242891, 0#8), (5242892, 0#8), (5242893, 0#8), (5242894, 0#8), (5242895, 0#8), (5242896, 4#8), (5242897, 119#8), (5242898, 253#8), (5242899, 142#8), (5242900, 21#8), (5242901, 188#8), (5242902, 104#8), (5242903, 168#8), (5242904, 209#8), (5242905, 206#8), (5242906, 34#8), (5242907, 120#8), (5242908, 31#8), (5242909, 219#8), (5242910, 144#8), (5242911, 222#8), (5242912, 221#8), (5242913, 215#8), (5242914, 205#8), (5242915, 246#8), (5242916, 87#8), (5242917, 229#8), (5242918, 39#8), (5242919, 249#8), (5242920, 95#8), (5242921, 201#8), (5242922, 139#8), (5242923, 190#8), (5242924, 105#8), (5242925, 24#8), (5242926, 51#8), (5242927, 126#8), (5242928, 0#8), (5242929, 0#8), (5242930, 0#8), (5242931, 0#8), (5242932, 0#8), (5242933, 0#8), (5242934, 0#8), (5242935, 0#8), (5242936, 0#8), (5242937, 0#8), (5242938, 0#8), (5242939, 0#8), (5242940, 149#8), (5242941, 229#8), (5242942, 116#8), (5242943, 243#8)] } }
    PortActs s 4 ∧
    s.snt.warmDue = false ∧ (let l := s.ldr
    let a := (s.reg 0x2404).toNat
    l.busy = false ∧
    l.held = [] ∧
    a < l.nvmSize ∧
    s.protectedAt (s.sectOf a) s.sectSize = true)) ∧
    (let s : State := {}
    PortActs s 4 ∧
    s.snt.warmDue = false ∧ (let l := s.ldr
    let a := (s.reg 0x2404).toNat
    l.busy = false ∧
    l.held = [] ∧
    a < l.nvmSize ∧
    s.protectedAt (s.sectOf a) s.sectSize = false ∧
    s.isNor = true)) := by
  refine ⟨?_, ?_, ?_, ?_, ?_, ?_, ?_, ?_⟩ <;> (unfold PortActs; decide +kernel)

theorem witness_LoaderWork_2 :
    (let s : State := {}
    PortActs s 4 ∧
    s.snt.warmDue = false ∧ (let l := s.ldr
    l.busy = false ∧
    l.held = [])) ∧
    (let s : State := { ldr := { spend := true } }
    PortActs s 4 ∧
    s.snt.warmDue = false ∧ (let l := s.ldr
    l.busy = false ∧
    l.held = [] ∧
    l.spend = true)) ∧
    (let s : State := { rank := 65536, regs := [(9244, 65536#32)], ldr := { spend := true } }
    PortActs s 4 ∧
    s.snt.warmDue = false ∧ (let l := s.ldr
    let t := fld (s.reg 0x241C) 16 12
    l.spend = true ∧
    t ≠ 0 ∧
    l.spendAt + 65536 * t ≤ s.rank)) ∧
    (let s : State := {}
    PortActs s 4 ∧
    s.snt.warmDue = false ∧ (let l := s.ldr
    let t := fld (s.reg 0x241C) 16 12
    (l.spend = false ∨ t = 0 ∨ s.rank < l.spendAt + 65536 * t))) ∧
    (let s : State := { regs := [(9224, 4#32)] }
    PortActs s 4 ∧
    s.ldr.busy = false ∧
    s.ldr.held = [] ∧
    s.snt.warmDue = false ∧
    1 ≤ fld (s.reg 0x2408) 0 9 ∧
    fld (s.reg 0x2408) 0 9 ≤ 32) := by
  refine ⟨?_, ?_, ?_, ?_, ?_⟩ <;> (unfold PortActs; decide +kernel)

theorem witness_SavesRetunesSwaps_1 :
    (let s : State := {}
    PortActs s 4 ∧
    s.ldr.busy = false ∧
    s.ldr.held = [] ∧
    s.snt.warmDue = false ∧
    s.region 4 = none) ∧
    (let s : State := { ldr := { hdr := (some { regions := [(0, 0), (0, 0), (0, 0), (0, 0), (0, 65536), (0, 0), (0, 0), (0, 0), (0, 0), (5242880, 4096)] }), nvm := protNvm } }
    PortActs s 4 ∧
    s.ldr.busy = false ∧
    s.ldr.held = [] ∧
    s.snt.warmDue = false ∧ (let b : Nat := 0
    let n : Nat := 65536
    s.region 4 = some (b, n) ∧
    s.protectedAt b n = true)) ∧
    (let s : State := {}
    PortActs s 4 ∧
    s.ldr.busy = false ∧
    s.ldr.held = [] ∧
    s.snt.warmDue = false ∧
    s.ldr.phase ≠ .opened) ∧
    (let s : State := { engs := [(0, { oldCopy := true })] }
    PortActs s 4 ∧
    s.ldr.busy = false ∧
    s.ldr.held = [] ∧
    s.snt.warmDue = false ∧
    s.draining = true) ∧
    (let s : State := { ldr := { phase := .opened, hdr := (some { regions := [(65536, 65536)] }) } }
    let p : BitVec 2 := 0#2
    PortActs s 4 ∧
    s.ldr.busy = false ∧
    s.ldr.held = [] ∧
    s.snt.warmDue = false ∧ (let a : Nat := 65536
    let n : Nat := 65536
    s.ldr.phase = .opened ∧
    s.draining = false ∧
    s.region p.toNat = some (a, n))) ∧
    (let s : State := {}
    s.snt.warmDue = false ∧
    s.swapReady = false) ∧
    (let s : State := { ldr := { spend := true } }
    s.snt.warmDue = false ∧
    s.swapReady = true) ∧
    (let s : State := {}
    s.snt.warmDue = false ∧
    (s.edge.swap = false ∨ s.ldr.spend = false)) := by
  refine ⟨?_, ?_, ?_, ?_, ?_, ?_, ?_, ?_⟩
  · unfold PortActs; decide +kernel
  · unfold PortActs; decide +kernel
  · unfold PortActs; decide +kernel
  · unfold PortActs; decide +kernel
  · unfold PortActs; decide +kernel
  · decide +kernel
  · decide +kernel
  · decide +kernel

theorem witness_SavesRetunesSwaps_2 :
    (let s : State := { edge := { swap := true }, ldr := { spend := true } }
    s.snt.warmDue = false ∧
    s.edge.swap = true ∧
    s.ldr.spend = true ∧
    s.edge.arms = [] ∧
    swapCtxs (s.tbl.filter fun x => swapKey x.1) s.shadowTbl = []) ∧
    (let s : State := { edge := { swap := true }, ldr := { spend := true } }
    s.snt.warmDue = false ∧
    s.edge.swap = true ∧
    s.ldr.spend = true ∧
    s.edge.arms = [] ∧
    swapCtxs (s.tbl.filter fun x => swapKey x.1) s.shadowTbl = []) ∧
    (let s : State := { edge := { swap := true }, engs := [(0, { st := .run })], ldr := { spend := true } }
    s.snt.warmDue = false ∧
    s.edge.swap = true ∧
    s.ldr.spend = true ∧
    s.edge.arms = [] ∧
    swapCtxs (s.tbl.filter fun x => swapKey x.1) s.shadowTbl = [] ∧
    ∃ x ∈ (s.engs), x.2.st = .run) := by
  refine ⟨?_, ?_, ?_⟩ <;> decide +kernel

theorem witness_StartsAndRestarts :
    (let s : State := { ldr := { phase := .opened } }
    s.snt.warmDue = false ∧
    s.startDue = false) ∧
    (let s : State := {}
    s.snt.warmDue = false ∧
    s.startDue = true ∧
    s.prepare.ldr.hdr = none) ∧
    (let s : State := { ldr := { phase := .failed } }
    s.snt.warmDue = false ∧
    PortActs s 4 ∧
    s.ldr.busy = false ∧
    s.ldr.held = [] ∧
    s.ldr.phase = .failed) ∧
    (let s : State := {}
    s.snt.warmDue = false ∧
    PortActs s 4 ∧
    s.ldr.busy = false ∧
    s.ldr.held = [] ∧
    s.ldr.phase ≠ .failed) ∧
    (let s : State := {}
    PortActs s 4 ∧
    s.ldr.busy = false ∧
    s.ldr.held = [] ∧
    s.pwr.trans = none) := by
  refine ⟨?_, ?_, ?_, ?_, ?_⟩
  · decide +kernel
  · decide +kernel
  · unfold PortActs; decide +kernel
  · unfold PortActs; decide +kernel
  · unfold PortActs; decide +kernel

theorem witness_NvmPort :
    (let s : State := { arbs := [(49, { holder := (some 0) })], ldr := { jobs := [{ req := 0, use := .nvmRead, steps := [(.read 4096 16)] }], transOn := true } }
    let j : NvmJob := { req := 0, use := .nvmRead, steps := [(.read 4096 16)] }
    s.ldr.held = [] ∧
    s.snt.warmDue = false ∧ (let a : Nat := 4096
    let n : Nat := 16
    s.txJob = some j ∧
    j.steps = [.read a n] ∧
    j.use = .nvmRead ∧
    j.got = [] ∧
    n ≤ 256)) ∧
    (let s : State := { arbs := [(49, { holder := (some 0) })], ldr := { jobs := [{ req := 0, use := .nvmProg, steps := [(.prog 6291456 [0x01#8, 0x02#8, 0x03#8])] }], transOn := true } }
    let j : NvmJob := { req := 0, use := .nvmProg, steps := [(.prog 6291456 [0x01#8, 0x02#8, 0x03#8])] }
    s.ldr.held = [] ∧
    s.snt.warmDue = false ∧ (let a : Nat := 6291456
    let d : List Byte := [1#8, 2#8, 3#8]
    s.txJob = some j ∧
    j.steps = [.prog a d] ∧
    j.use = .nvmProg ∧
    (∀ i, i < d.length → s.nvmPhys (a + i) = s.nvmPhys a + i))) ∧
    (let s : State := { arbs := [(49, { holder := (some 0) })], ldr := { nvm := [(4097, 3#8)], jobs := [{ req := 0, use := .nvmProg, steps := [(.prog 4096 [0x01#8, 0x02#8, 0x03#8])] }] } }
    let j : NvmJob := { req := 0, use := .nvmProg, steps := [(.prog 4096 [0x01#8, 0x02#8, 0x03#8])] }
    s.ldr.held = [] ∧
    s.snt.warmDue = false ∧ (let a : Nat := 4096
    let d : List Byte := [1#8, 2#8, 3#8]
    let i : Nat := 1
    (s.arb 49).holder.bind s.headJob = some j ∧
    j.steps = [.prog a d] ∧
    j.use = .nvmProg ∧
    s.isNor = true ∧
    i < d.length ∧
    s.nvmByte (a + i) ≠ 0xFF#8)) ∧
    (let s : State := { ldr := { jobs := [{ req := 0, use := .nvmErase, steps := [(.erase 12288)] }], erase := (some { addr := 12288, runFrom := 500000, susp := false }) } }
    let j : NvmJob := { req := 0, use := .nvmErase, steps := [(.erase 12288)] }
    s.ldr.held = [] ∧
    s.snt.warmDue = false ∧ (let e : Erase := { addr := 12288, runFrom := 500000, susp := false }
    s.txJob = none ∧
    s.ldr.erase = some e ∧
    e.susp = false ∧
    s.erasingJob = some j ∧
    j.steps = [.erase e.addr] ∧
    j.use = .nvmErase)) ∧
    (let s : State := { arbs := [(49, { holder := (some 0) })], ldr := { jobs := [{ req := 0, use := .nvmProg, steps := [(.prog 4096 [0x01#8, 0x02#8, 0x03#8])] }], transOn := true }, snt := { funcs := [(5408, { step := 1, busy := true })] } }
    s.snt.warmDue = false ∧ (let j : NvmJob := { req := 0, use := .nvmProg, steps := [(.prog 4096 [0x01#8, 0x02#8, 0x03#8])] }
    let a : Nat := 4096
    let d : List Byte := [1#8, 2#8, 3#8]
    s.txJob = some j ∧
    j.steps = [.prog a d] ∧
    j.use = .nvmProg ∧
    s.ldr.held = [] ∧
    s.progLate = true ∧
    s.region 8 = none ∧
    (s.func 5408).busy = true ∧
    (s.func 5408).step = 1)) ∧
    (let s : State := { rank := 6400000, ldr := { jobs := [{ req := 0, use := .nvmRead, steps := [(.read 36864 4)] }], erase := (some { addr := 12288, runFrom := 0, susp := false }) } }
    s.snt.warmDue = false ∧ (let e : Erase := { addr := 12288, runFrom := 0, susp := false }
    s.ldr.erase = some e ∧
    e.susp = false ∧
    e.runFrom + 3200000 ≤ s.eng2 ∧
    s.readWaits = true)) ∧
    (let s : State := { ldr := { erase := (some { addr := 12288, runFrom := 500000, susp := false }) } }
    s.snt.warmDue = false ∧ (let e : Erase := { addr := 12288, runFrom := 500000, susp := false }
    s.ldr.erase = some e ∧
    (e.susp = true ∨ s.eng2 < e.runFrom + 3200000 ∨ s.readWaits = false))) ∧
    (let s : State := { ldr := { erase := (some { addr := 12288, runFrom := 500000, susp := true }) } }
    s.snt.warmDue = false ∧ (let e : Erase := { addr := 12288, runFrom := 500000, susp := true }
    s.ldr.erase = some e ∧
    e.susp = true ∧
    s.ldr.transOn = false ∧
    s.readWaits = false)) ∧
    (let s : State := {}
    s.snt.warmDue = false ∧
    s.ldr.erase = none) := by
  refine ⟨?_, ?_, ?_, ?_, ?_, ?_, ?_, ?_, ?_⟩ <;> decide +kernel

theorem witness_PowerCommands_1 :
    (let s : State := {}
    s.snt.warmDue = false) ∧
    (let s : State := {}
    s.snt.warmDue = false ∧ (let w := s.win 0
    s.regReady = true ∧
    s.mir.role ≠ .standby ∧
    w.posted.length < 4)) ∧
    (let s : State := { slowEdge := 1001, wins := [(0, { posted := [{ off := 10240, img := .plain, data := 9#32, mask := 4294967295#32 }] })], pwr := { trans := (some { ph := .asking, tgt := [], ropen := false, raise := [], acked := [], ask := [], asked := 998, stopped := [], await := [], at_ := 0, next := 0, wake := false, pm := false, cold := false }) } }
    let m : BitVec 3 := 2#3
    s.snt.warmDue = false ∧ (let w := s.win 0
    let word := fun (x : Word) => ({ off := 0x2800, img := .plain, data := x, mask := 0xFFFFFFFF } : Posted)
    w.postedAt < s.slowEdge ∧
    w.appliedAt ≠ some s.slowEdge ∧ (let mode := w.posted.head? = some (word (wd (1 + 4 * m.toNat)))
    let apply_ := w.posted.head? = some (word 2)
    s.pwr.trans.isSome = true ∧
    (mode ∨ apply_)))) ∧
    (let s : State := { slowEdge := 1001, wins := [(0, { posted := [{ off := 10240, img := .plain, data := 5#32, mask := 4294967295#32 }] })], pwr := { pmAt := (some 1001) } }
    let m : BitVec 3 := 1#3
    s.snt.warmDue = false ∧ (let w := s.win 0
    let word := fun (x : Word) => ({ off := 0x2800, img := .plain, data := x, mask := 0xFFFFFFFF } : Posted)
    w.postedAt < s.slowEdge ∧
    w.appliedAt ≠ some s.slowEdge ∧ (let mode := w.posted.head? = some (word (wd (1 + 4 * m.toNat)))
    let apply_ := w.posted.head? = some (word 2)
    s.pwr.trans = none ∧
    s.pwr.lateWake = none ∧
    s.pwr.pmReq = none ∧
    s.pwr.warmWait = false ∧
    s.log.pfWant = 0 ∧
    s.pwr.pmAt = some s.slowEdge ∧
    (mode ∨ apply_)))) ∧
    (let s : State := { slowEdge := 1, wins := [(0, { posted := [{ off := 10240, img := .plain, data := 21#32, mask := 4294967295#32 }] })] }
    let m : BitVec 3 := 5#3
    s.snt.warmDue = false ∧ (let w := s.win 0
    let word := fun (x : Word) => ({ off := 0x2800, img := .plain, data := x, mask := 0xFFFFFFFF } : Posted)
    w.postedAt < s.slowEdge ∧
    w.appliedAt ≠ some s.slowEdge ∧ (let mode := w.posted.head? = some (word (wd (1 + 4 * m.toNat)))
    s.pwr.trans = none ∧
    s.pwr.lateWake = none ∧
    s.pwr.pmReq = none ∧
    s.pwr.warmWait = false ∧
    s.log.pfWant = 0 ∧
    s.pwr.pmAt ≠ some s.slowEdge ∧
    mode ∧
    4 < m.toNat))) ∧
    (let s : State := { slowEdge := 1001, regs := [(10256, 3#32)], wins := [(0, { posted := [{ off := 10240, img := .plain, data := 2#32, mask := 4294967295#32 }] })] }
    s.snt.warmDue = false ∧ (let w := s.win 0
    let word := fun (x : Word) => ({ off := 0x2800, img := .plain, data := x, mask := 0xFFFFFFFF } : Posted)
    w.postedAt < s.slowEdge ∧
    w.appliedAt ≠ some s.slowEdge ∧ (let apply_ := w.posted.head? = some (word 2)
    s.pwr.trans = none ∧
    s.pwr.lateWake = none ∧
    s.pwr.pmReq = none ∧
    s.pwr.warmWait = false ∧
    s.log.pfWant = 0 ∧
    s.pwr.pmAt ≠ some s.slowEdge ∧
    apply_ ∧
    (∃ d ∈ strikeOrder, s.dtgt d = 3)))) ∧
    (let s : State := { slowEdge := 1001, regs := [(10248, 1431655765#32)], wins := [(0, { posted := [{ off := 10240, img := .plain, data := 2#32, mask := 4294967295#32 }] })] }
    s.snt.warmDue = false ∧ (let w := s.win 0
    let word := fun (x : Word) => ({ off := 0x2800, img := .plain, data := x, mask := 0xFFFFFFFF } : Posted)
    w.postedAt < s.slowEdge ∧
    w.appliedAt ≠ some s.slowEdge ∧ (let apply_ := w.posted.head? = some (word 2)
    s.pwr.trans = none ∧
    s.pwr.lateWake = none ∧
    s.pwr.pmReq = none ∧
    s.pwr.warmWait = false ∧
    s.log.pfWant = 0 ∧
    s.pwr.pmAt ≠ some s.slowEdge ∧
    apply_ ∧
    ∃ d ∈ (strikeOrder), d ≠ 2 ∧
    s.dtgt d = 0 ∧
    (s.dtgt 2 ≠ 0 ∨ (d ≠ 0 ∧ s.dtgt 0 ≠ 0))))) ∧
    (let s : State := { slowEdge := 1001, regs := [(10248, 1431655765#32)], wins := [(0, { posted := [{ off := 10240, img := .plain, data := 2#32, mask := 4294967295#32 }] })] }
    s.snt.warmDue = false ∧ (let w := s.win 0
    let word := fun (x : Word) => ({ off := 0x2800, img := .plain, data := x, mask := 0xFFFFFFFF } : Posted)
    w.postedAt < s.slowEdge ∧
    w.appliedAt ≠ some s.slowEdge ∧ (let apply_ := w.posted.head? = some (word 2)
    s.pwr.trans = none ∧
    s.pwr.lateWake = none ∧
    s.pwr.pmReq = none ∧
    s.pwr.warmWait = false ∧
    s.log.pfWant = 0 ∧
    s.pwr.pmAt ≠ some s.slowEdge ∧
    apply_ ∧
    bit (s.reg 0x2808) 16 = true ∧
    (∃ d ∈ strikeOrder, s.dtgt d ≠ 2)))) := by
  refine ⟨?_, ?_, ?_, ?_, ?_, ?_, ?_, ?_⟩ <;> decide +kernel

theorem witness_PowerCommands_2 :
    (let s : State := { slowEdge := 1002, wins := [(0, { posted := [{ off := 10240, img := .plain, data := 1#32, mask := 4294967295#32 }] })] }
    let m : BitVec 3 := 0#3
    s.snt.warmDue = false ∧ (let w := s.win 0
    let word := fun (x : Word) => ({ off := 0x2800, img := .plain, data := x, mask := 0xFFFFFFFF } : Posted)
    w.postedAt < s.slowEdge ∧
    w.appliedAt ≠ some s.slowEdge ∧ (let mode := w.posted.head? = some (word (wd (1 + 4 * m.toNat)))
    s.pwr.trans = none ∧
    s.pwr.lateWake = none ∧
    s.pwr.pmReq = none ∧
    s.pwr.warmWait = false ∧
    s.log.pfWant = 0 ∧
    s.pwr.pmAt ≠ some s.slowEdge ∧
    (∀ d ∈ strikeOrder, s.dom d = .on) ∧
    s.pwr.ropen = false ∧
    mode ∧
    m = 0))) ∧
    (let s : State := { slowEdge := 1041, wins := [(0, { posted := [{ off := 10240, img := .plain, data := 5#32, mask := 4294967295#32 }] })] }
    let m : BitVec 3 := 1#3
    s.snt.warmDue = false ∧ (let w := s.win 0
    let word := fun (x : Word) => ({ off := 0x2800, img := .plain, data := x, mask := 0xFFFFFFFF } : Posted)
    let want : Nat → DomSt := fun d =>
          if m = 0 then .on
          else if m = 1 then (if 8 ≤ d ∨ d = 4 then .ret else .on)
          else if m = 2 then (if d = 2 then .ret else .off)
          else .off
    w.postedAt < s.slowEdge ∧
    w.appliedAt ≠ some s.slowEdge ∧ (let mode := w.posted.head? = some (word (wd (1 + 4 * m.toNat)))
    s.pwr.trans = none ∧
    s.pwr.lateWake = none ∧
    s.pwr.pmReq = none ∧
    s.pwr.warmWait = false ∧
    s.log.pfWant = 0 ∧
    s.pwr.pmAt ≠ some s.slowEdge ∧
    (∀ d ∈ strikeOrder, s.dom d = .on) ∧
    s.pwr.ropen = false ∧
    mode ∧
    m ≠ 0 ∧
    m.toNat ≤ 4 ∧
    (want 2 = .off → s.ldr.hdr = none)))) ∧
    (let s : State := { slowEdge := 1001, regs := [(10256, 1431655765#32)], wins := [(0, { posted := [{ off := 10240, img := .plain, data := 2#32, mask := 4294967295#32 }] })] }
    s.snt.warmDue = false ∧ (let w := s.win 0
    let word := fun (x : Word) => ({ off := 0x2800, img := .plain, data := x, mask := 0xFFFFFFFF } : Posted)
    w.postedAt < s.slowEdge ∧
    w.appliedAt ≠ some s.slowEdge ∧ (let apply_ := w.posted.head? = some (word 2)
    s.pwr.trans = none ∧
    s.pwr.lateWake = none ∧
    s.pwr.pmReq = none ∧
    s.pwr.warmWait = false ∧
    s.log.pfWant = 0 ∧
    s.pwr.pmAt ≠ some s.slowEdge ∧
    (∀ d ∈ strikeOrder, s.dom d = .on) ∧
    s.pwr.ropen = false ∧
    apply_ ∧ (let f : Nat → DomSt := (fun d => (domCode (s.dtgt d)).getD .on)
    (∀ d ∈ strikeOrder, s.dtgt d = (f d).code) ∧
    (∃ d ∈ strikeOrder, f d ≠ .on) ∧
    (∀ d ∈ strikeOrder, d ≠ 2 → f d = .on → f 2 = .on ∧ (d = 0 ∨ f 0 = .on)) ∧
    bit (s.reg 0x2808) 16 = false ∧
    (f 2 = .off → s.ldr.hdr = none))))) ∧
    (let s : State := {}
    s.snt.warmDue = false ∧
    s.pwr.trans = none ∧
    s.pwr.lateWake = none ∧
    s.log.pfWant = 0 ∧
    s.pwr.warmWait = false) ∧
    (let s : State := {}
    s.snt.warmDue = false ∧
    s.pwr.trans = none ∧
    s.pwr.lateWake = none ∧
    s.log.pfWant = 0 ∧
    s.pwr.warmWait = false ∧
    s.pwr.pmMid = none) ∧
    (let s : State := { pwr := { pmMid := (some 5) } }
    let m : BitVec 3 := 5#3
    s.snt.warmDue = false ∧
    s.pwr.trans = none ∧
    s.pwr.lateWake = none ∧
    s.log.pfWant = 0 ∧
    s.pwr.warmWait = false ∧
    s.pwr.pmMid = some m.toNat ∧
    s.pwr.pmAck = false ∧
    4 < m.toNat) ∧
    (let s : State := { pwr := { pmMid := (some 0) } }
    let m : BitVec 3 := 0#3
    s.snt.warmDue = false ∧
    s.pwr.trans = none ∧
    s.pwr.lateWake = none ∧
    s.log.pfWant = 0 ∧
    s.pwr.warmWait = false ∧
    s.pwr.pmMid = some m.toNat ∧
    s.pwr.pmAck = false ∧
    (∀ d ∈ strikeOrder, s.dom d = .on) ∧
    s.pwr.ropen = false ∧
    m = 0) ∧
    (let s : State := { pwr := { pmMid := (some 3) } }
    let m : BitVec 3 := 3#3
    s.snt.warmDue = false ∧ (let want : Nat → DomSt := fun d =>
          if m = 0 then .on
          else if m = 1 then (if 8 ≤ d ∨ d = 4 then .ret else .on)
          else if m = 2 then (if d = 2 then .ret else .off)
          else .off
    s.pwr.trans = none ∧
    s.pwr.lateWake = none ∧
    s.log.pfWant = 0 ∧
    s.pwr.warmWait = false ∧
    s.pwr.pmMid = some m.toNat ∧
    s.pwr.pmAck = false ∧
    (∀ d ∈ strikeOrder, s.dom d = .on) ∧
    s.pwr.ropen = false ∧
    m ≠ 0 ∧
    m.toNat ≤ 4 ∧
    (want 2 = .off → s.ldr.hdr = none))) := by
  refine ⟨?_, ?_, ?_, ?_, ?_, ?_, ?_, ?_⟩ <;> decide +kernel

theorem witness_Strikes_1 :
    (let s : State := { pwr := { trans := (some { ph := .asking, tgt := [], ropen := false, raise := [], acked := [], ask := [16], asked := 1000, stopped := [], await := [], at_ := 0, next := 1001, wake := false, pm := false, cold := false }) } }
    let t : Trans := { ph := .asking, tgt := [], ropen := false, raise := [], acked := [], ask := [16], asked := 1000, stopped := [], await := [], at_ := 0, next := 1001, wake := false, pm := false, cold := false }
    let d : Nat := 16
    let rest : List Nat := []
    s.pwr.trans = some t ∧
    s.snt.warmDue = false ∧
    t.ask = d :: rest ∧
    t.ph = .asking ∧
    (s.slowEdge < t.asked + 2 ∨ t.asked + max 3 (fld (s.reg 0x2824) 0 8) < s.slowEdge ∨
              (s.working d = true ∧ (8 ≤ d ∨ s.refusal d = none)))) ∧
    (let s : State := { slowEdge := 1000, pwr := { trans := (some { ph := .asking, tgt := [], ropen := false, raise := [], acked := [], ask := [1, 0], asked := 997, stopped := [], await := [], at_ := 0, next := 0, wake := false, pm := false, cold := false }) } }
    let t : Trans := { ph := .asking, tgt := [], ropen := false, raise := [], acked := [], ask := [1, 0], asked := 997, stopped := [], await := [], at_ := 0, next := 0, wake := false, pm := false, cold := false }
    let d : Nat := 1
    let rest : List Nat := [0]
    s.pwr.trans = some t ∧
    s.snt.warmDue = false ∧
    t.ask = d :: rest ∧
    t.ph = .asking ∧
    t.asked + 2 ≤ s.slowEdge ∧
    s.slowEdge ≤ t.asked + max 3 (fld (s.reg 0x2824) 0 8) ∧
    s.working d = false ∧
    s.refusal d = none ∧
    rest ≠ []) ∧
    (let s : State := { slowEdge := 1001, pwr := { trans := (some { ph := .asking, tgt := [], ropen := false, raise := [], acked := [], ask := [0], asked := 998, stopped := [], await := [], at_ := 0, next := 0, wake := false, pm := false, cold := false }) } }
    let t : Trans := { ph := .asking, tgt := [], ropen := false, raise := [], acked := [], ask := [0], asked := 998, stopped := [], await := [], at_ := 0, next := 0, wake := false, pm := false, cold := false }
    let d : Nat := 0
    let rest : List Nat := []
    s.pwr.trans = some t ∧
    s.snt.warmDue = false ∧
    t.ask = d :: rest ∧
    t.ph = .asking ∧
    t.asked + 2 ≤ s.slowEdge ∧
    s.slowEdge ≤ t.asked + max 3 (fld (s.reg 0x2824) 0 8) ∧
    s.working d = false ∧
    s.refusal d = none ∧
    rest = []) ∧
    (let s : State := { slowEdge := 2, ldr := { busy := true }, pwr := { trans := (some { ph := .asking, tgt := [], ropen := false, raise := [], acked := [], ask := [4], asked := 0, stopped := [2], await := [], at_ := 0, next := 0, wake := false, pm := false, cold := false }) } }
    let t : Trans := { ph := .asking, tgt := [], ropen := false, raise := [], acked := [], ask := [4], asked := 0, stopped := [2], await := [], at_ := 0, next := 0, wake := false, pm := false, cold := false }
    let d : Nat := 4
    let rest : List Nat := []
    s.pwr.trans = some t ∧
    s.snt.warmDue = false ∧
    t.ask = d :: rest ∧
    t.ph = .asking ∧
    t.asked + 2 ≤ s.slowEdge ∧
    s.slowEdge ≤ t.asked + max 3 (fld (s.reg 0x2824) 0 8) ∧ (let r : Nat := 3
    d ∈ strikeOrder ∧
    (s.working d = false ∨ d < 8) ∧
    s.refusal d = some r ∧
    t.stopped ≠ [])) ∧
    (let s : State := { slowEdge := 2, ldr := { busy := true }, pwr := { trans := (some { ph := .asking, tgt := [], ropen := false, raise := [], acked := [], ask := [4], asked := 0, stopped := [], await := [], at_ := 0, next := 0, wake := false, pm := false, cold := false }) } }
    let t : Trans := { ph := .asking, tgt := [], ropen := false, raise := [], acked := [], ask := [4], asked := 0, stopped := [], await := [], at_ := 0, next := 0, wake := false, pm := false, cold := false }
    let d : Nat := 4
    let rest : List Nat := []
    s.pwr.trans = some t ∧
    s.snt.warmDue = false ∧
    t.ask = d :: rest ∧
    t.ph = .asking ∧
    t.asked + 2 ≤ s.slowEdge ∧
    s.slowEdge ≤ t.asked + max 3 (fld (s.reg 0x2824) 0 8) ∧ (let r : Nat := 3
    d ∈ strikeOrder ∧
    (s.working d = false ∨ d < 8) ∧
    s.refusal d = some r ∧
    t.stopped = [] ∧
    t.boot = false ∧
    s.pwr.lateWake = none ∧
    s.pwr.pmReq = none ∧
    s.pwr.warmWait = false ∧
    s.log.pfWant = 0 ∧
    bit (s.reg 0x2838) 0 = false)) ∧
    (let s : State := { slowEdge := 1040, pwr := { trans := (some { ph := .asking, tgt := [], ropen := false, raise := [], acked := [], ask := [0], asked := 997, stopped := [], await := [], at_ := 0, next := 0, wake := true, pm := false, cold := false }) } }
    let t : Trans := { ph := .asking, tgt := [], ropen := false, raise := [], acked := [], ask := [0], asked := 997, stopped := [], await := [], at_ := 0, next := 0, wake := true, pm := false, cold := false }
    let d : Nat := 0
    let rest : List Nat := []
    s.pwr.trans = some t ∧
    s.snt.warmDue = false ∧
    t.ask = d :: rest ∧
    t.ph = .asking ∧
    d ∈ strikeOrder ∧
    t.asked + max 3 (fld (s.reg 0x2824) 0 8) ≤ s.slowEdge) ∧
    (let s : State := { pwr := { trans := (some { ph := .asking, tgt := [], ropen := false, raise := [], acked := [], ask := [0], asked := 997, stopped := [], await := [], at_ := 0, next := 0, wake := false, pm := false, cold := false }) } }
    let t : Trans := { ph := .asking, tgt := [], ropen := false, raise := [], acked := [], ask := [0], asked := 997, stopped := [], await := [], at_ := 0, next := 0, wake := false, pm := false, cold := false }
    let d : Nat := 0
    let rest : List Nat := []
    s.pwr.trans = some t ∧
    s.snt.warmDue = false ∧
    t.ask = d :: rest ∧
    t.ph = .asking ∧
    s.slowEdge < t.asked + max 3 (fld (s.reg 0x2824) 0 8)) ∧
    (let s : State := { slowEdge := 1000, pwr := { trans := (some { ph := .undoing, tgt := [], ropen := true, raise := [], acked := [], ask := [], asked := 999, stopped := [2], await := [], at_ := 0, next := 1000, wake := true, pm := false, cold := false }) } }
    let t : Trans := { ph := .undoing, tgt := [], ropen := true, raise := [], acked := [], ask := [], asked := 999, stopped := [2], await := [], at_ := 0, next := 1000, wake := true, pm := false, cold := false }
    let d : Nat := 2
    let rest : List Nat := []
    s.pwr.trans = some t ∧
    s.snt.warmDue = false ∧
    t.stopped = d :: rest ∧
    t.ph = .undoing ∧
    t.next ≤ s.slowEdge ∧
    d ≠ 1 ∧
    (d = 0 → s.ins = []) ∧
    (∀ x ∈ s.engs, d = 8 + x.1 / 16 → x.2.st.busy = false)) := by
  refine ⟨?_, ?_, ?_, ?_, ?_, ?_, ?_, ?_⟩ <;> decide +kernel

theorem witness_Strikes_2 :
    (let s : State := { pwr := { trans := (some { ph := .undoing, tgt := [], ropen := false, raise := [], acked := [], ask := [], asked := 0, stopped := [2], await := [], at_ := 0, next := 1, wake := false, pm := false, cold := false }) } }
    let t : Trans := { ph := .undoing, tgt := [], ropen := false, raise := [], acked := [], ask := [], asked := 0, stopped := [2], await := [], at_ := 0, next := 1, wake := false, pm := false, cold := false }
    let d : Nat := 2
    let rest : List Nat := []
    s.pwr.trans = some t ∧
    s.snt.warmDue = false ∧
    t.stopped = d :: rest ∧
    t.ph = .undoing ∧
    s.slowEdge < t.next) ∧
    (let s : State := { pwr := { trans := (some { ph := .asking, tgt := [], ropen := false, raise := [], acked := [], ask := [], asked := 0, stopped := [], await := [], at_ := 0, next := 0, wake := false, pm := false, cold := false }) } }
    let t : Trans := { ph := .asking, tgt := [], ropen := false, raise := [], acked := [], ask := [], asked := 0, stopped := [], await := [], at_ := 0, next := 0, wake := false, pm := false, cold := false }
    let d : Nat := 0
    s.pwr.trans = some t ∧
    d < 40 ∧
    s.snt.warmDue = false) ∧
    (let s : State := { slowEdge := 1001, pwr := { trans := (some { ph := .acking, tgt := [(0, .off)], ropen := true, raise := [], acked := [], ask := [], asked := 601, stopped := [], await := [0], at_ := 0, next := 1001, wake := true, pm := false, cold := false }), ack := [(0, .off)] } }
    let t : Trans := { ph := .acking, tgt := [(0, .off)], ropen := true, raise := [], acked := [], ask := [], asked := 601, stopped := [], await := [0], at_ := 0, next := 1001, wake := true, pm := false, cold := false }
    let d : Nat := 0
    s.pwr.trans = some t ∧
    d < 40 ∧
    s.snt.warmDue = false ∧
    t.ph = .acking ∧
    d ∈ t.await ∧
    d ≠ 5 ∧
    t.next ≤ s.slowEdge ∧
    tgtOf s.pwr.ack d = tgtOf t.tgt d ∧
    (∀ k < 64, (s.dst (512 + k)).offer = none)) ∧
    (let s : State := { slowEdge := 1001, pwr := { trans := (some { ph := .acking, tgt := [], ropen := false, raise := [], acked := [], ask := [], asked := 601, stopped := [], await := [39, 1], at_ := 0, next := 606, wake := false, pm := false, cold := false }) } }
    let t : Trans := { ph := .acking, tgt := [], ropen := false, raise := [], acked := [], ask := [], asked := 601, stopped := [], await := [39, 1], at_ := 0, next := 606, wake := false, pm := false, cold := false }
    let d : Nat := 1
    s.pwr.trans = some t ∧
    d < 40 ∧
    s.snt.warmDue = false ∧
    t.ph = .acking ∧
    d ∈ t.await ∧
    d ≠ 5 ∧
    t.next ≤ s.slowEdge ∧
    tgtOf s.pwr.ack d = tgtOf t.tgt d ∧
    (∀ k < 64, (s.dst (512 + k)).offer = none) ∧
    t.await.filter (· ≠ d) ≠ [] ∧ (let k : Nat := 0
    k ≠ d)) ∧
    (let s : State := { slowEdge := 1001, pwr := { trans := (some { ph := .acking, tgt := [], ropen := false, raise := [], acked := [], ask := [], asked := 601, stopped := [], await := [39, 1], at_ := 0, next := 606, wake := false, pm := false, cold := false }) } }
    let t : Trans := { ph := .acking, tgt := [], ropen := false, raise := [], acked := [], ask := [], asked := 601, stopped := [], await := [39, 1], at_ := 0, next := 606, wake := false, pm := false, cold := false }
    let d : Nat := 1
    s.pwr.trans = some t ∧
    d < 40 ∧
    s.snt.warmDue = false ∧
    t.ph = .acking ∧
    d ∈ t.await ∧
    d ≠ 5 ∧
    t.next ≤ s.slowEdge ∧
    tgtOf s.pwr.ack d = tgtOf t.tgt d ∧
    (∀ k < 64, (s.dst (512 + k)).offer = none) ∧
    t.await.filter (· ≠ d) ≠ []) ∧
    (let s : State := { slowEdge := 1001, pwr := { trans := (some { ph := .acking, tgt := [(0, .off)], ropen := true, raise := [], acked := [], ask := [], asked := 601, stopped := [], await := [0], at_ := 0, next := 1001, wake := true, pm := false, cold := false }), ack := [(0, .off)] } }
    let t : Trans := { ph := .acking, tgt := [(0, .off)], ropen := true, raise := [], acked := [], ask := [], asked := 601, stopped := [], await := [0], at_ := 0, next := 1001, wake := true, pm := false, cold := false }
    let d : Nat := 0
    s.pwr.trans = some t ∧
    d < 40 ∧
    s.snt.warmDue = false ∧
    t.ph = .acking ∧
    d ∈ t.await ∧
    d ≠ 5 ∧
    t.next ≤ s.slowEdge ∧
    tgtOf s.pwr.ack d = tgtOf t.tgt d ∧
    (∀ k < 64, (s.dst (512 + k)).offer = none) ∧
    t.await.filter (· ≠ d) = [] ∧
    t.ropen = true ∧
    s.pwr.ropen = false) ∧
    (let s : State := { slowEdge := 1000, pwr := { trans := (some { ph := .acking, tgt := [], ropen := false, raise := [], acked := [], ask := [], asked := 600, stopped := [], await := [1], at_ := 0, next := 600, wake := true, pm := false, cold := true }) } }
    let t : Trans := { ph := .acking, tgt := [], ropen := false, raise := [], acked := [], ask := [], asked := 600, stopped := [], await := [1], at_ := 0, next := 600, wake := true, pm := false, cold := true }
    let d : Nat := 1
    s.pwr.trans = some t ∧
    d < 40 ∧
    s.snt.warmDue = false ∧
    t.ph = .acking ∧
    d ∈ t.await ∧
    d ≠ 5 ∧
    t.next ≤ s.slowEdge ∧
    tgtOf s.pwr.ack d = tgtOf t.tgt d ∧
    (∀ k < 64, (s.dst (512 + k)).offer = none) ∧
    t.await.filter (· ≠ d) = [] ∧
    (t.ropen = false ∨ s.pwr.ropen = true) ∧
    t.boot = false ∧
    s.pwr.warmWait = false) ∧
    (let s : State := { pwr := { trans := (some { ph := .acking, tgt := [], ropen := true, raise := [], acked := [], ask := [], asked := 600, stopped := [], await := [5], at_ := 0, next := 1000, wake := true, pm := false, cold := true }), ack := [(5, .off)] } }
    let t : Trans := { ph := .acking, tgt := [], ropen := true, raise := [], acked := [], ask := [], asked := 600, stopped := [], await := [5], at_ := 0, next := 1000, wake := true, pm := false, cold := true }
    let d : Nat := 0
    s.pwr.trans = some t ∧
    d < 40 ∧
    s.snt.warmDue = false ∧
    t.ph = .acking ∧
    t.await = [5] ∧
    tgtOf s.pwr.ack 5 = .off ∧
    t.boot = false ∧
    s.pwr.warmWait = false) := by
  refine ⟨?_, ?_, ?_, ?_, ?_, ?_, ?_, ?_⟩ <;> decide +kernel

theorem witness_Strikes_3 :
    (let s : State := { pwr := { trans := (some { ph := .raising, tgt := [], ropen := true, raise := [5, 2], acked := [], ask := [], asked := 1000, stopped := [], await := [], at_ := 0, next := 1000, wake := false, pm := false, cold := false }) } }
    let t : Trans := { ph := .raising, tgt := [], ropen := true, raise := [5, 2], acked := [], ask := [], asked := 1000, stopped := [], await := [], at_ := 0, next := 1000, wake := false, pm := false, cold := false }
    let d : Nat := 0
    s.pwr.trans = some t ∧
    d < 40 ∧
    s.snt.warmDue = false ∧ (let rest : List Nat := [2]
    t.ph = .raising ∧
    t.raise = 5 :: rest ∧
    tgtOf s.pwr.ack 5 = .on ∧
    rest ≠ [])) ∧
    (let s : State := { pwr := { trans := (some { ph := .raising, tgt := [], ropen := false, raise := [0], acked := [], ask := [], asked := 997, stopped := [], await := [], at_ := 0, next := 0, wake := false, pm := false, cold := false }) } }
    let t : Trans := { ph := .raising, tgt := [], ropen := false, raise := [0], acked := [], ask := [], asked := 997, stopped := [], await := [], at_ := 0, next := 0, wake := false, pm := false, cold := false }
    let d : Nat := 0
    s.pwr.trans = some t ∧
    d < 40 ∧
    s.snt.warmDue = false ∧ (let rest : List Nat := []
    t.ph = .raising ∧
    t.raise = d :: rest ∧
    d ≠ 5 ∧
    t.acked = [] ∧
    tgtOf s.pwr.ack d = .on)) ∧
    (let s : State := { pwr := { trans := (some { ph := .raising, tgt := [], ropen := false, raise := [2], acked := [2], ask := [], asked := 998, stopped := [], await := [], at_ := 0, next := 1003, wake := true, pm := true, cold := false }) } }
    let t : Trans := { ph := .raising, tgt := [], ropen := false, raise := [2], acked := [2], ask := [], asked := 998, stopped := [], await := [], at_ := 0, next := 1003, wake := true, pm := true, cold := false }
    let d : Nat := 2
    s.pwr.trans = some t ∧
    d < 40 ∧
    s.snt.warmDue = false ∧ (let rest : List Nat := []
    t.ph = .raising ∧
    t.raise = d :: rest ∧
    d ≠ 5 ∧
    t.acked = [d] ∧
    s.slowEdge < t.next)) ∧
    (let s : State := { slowEdge := 1000, pwr := { trans := (some { ph := .raising, tgt := [], ropen := false, raise := [1, 38], acked := [1], ask := [], asked := 998, stopped := [], await := [], at_ := 0, next := 999, wake := false, pm := false, cold := false }) } }
    let t : Trans := { ph := .raising, tgt := [], ropen := false, raise := [1, 38], acked := [1], ask := [], asked := 998, stopped := [], await := [], at_ := 0, next := 999, wake := false, pm := false, cold := false }
    let d : Nat := 1
    s.pwr.trans = some t ∧
    d < 40 ∧
    s.snt.warmDue = false ∧ (let rest : List Nat := [38]
    t.ph = .raising ∧
    t.raise = d :: rest ∧
    d ≠ 5 ∧
    t.acked = [d] ∧
    t.next ≤ s.slowEdge ∧
    (d = 1 → s.dom 1 ≠ .ret) ∧
    (d = 0 → s.ldr.phase ≠ .opened) ∧
    s.log.pfWant = 0 ∧
    rest ≠ [])) := by
  refine ⟨?_, ?_, ?_, ?_⟩ <;> decide +kernel

theorem witness_WakesAndSlowEdges :
    (let s : State := {}
    let a : BitVec 7 := 0#7
    s.snt.warmDue = false ∧
    s.pwr.lateWake = none ∧ (let en := s.reg 0x2830
    (bit en 0 = false ∨ a.toNat ≠ fld (s.reg 0x282C) 0 7))) ∧
    (let s : State := {}
    let l : Bool := true
    s.snt.warmDue = false ∧
    s.pwr.lateWake = none ∧ (let en := s.reg 0x2830
    (bit en 1 = false ∨ l = s.pwr.wakeIn ∨ l = bit en 4))) ∧
    (let s : State := { regs := [(10288, 7#32)], pwr := { dom := [(0, .off)] } }
    let a : BitVec 7 := 0#7
    s.snt.warmDue = false ∧
    s.pwr.lateWake = none ∧ (let en := s.reg 0x2830
    s.pwr.trans = none ∧
    fld en 5 3 = 0 ∧
    (∃ d ∈ strikeOrder, s.dom d ≠ .on) ∧
    (∀ q, s.pwr.lastWake = some q → q.at_ ≠ s.slowEdge) ∧
    bit en 0 = true ∧
    a.toNat = fld (s.reg 0x282C) 0 7)) ∧
    (let s : State := { regs := [(10288, 7#32)], pwr := { dom := [(0, .off)] } }
    let l : Bool := true
    s.snt.warmDue = false ∧
    s.pwr.lateWake = none ∧ (let en := s.reg 0x2830
    s.pwr.trans = none ∧
    fld en 5 3 = 0 ∧
    (∃ d ∈ strikeOrder, s.dom d ≠ .on) ∧
    (∀ q, s.pwr.lastWake = some q → q.at_ ≠ s.slowEdge) ∧
    bit en 1 = true ∧
    l ≠ s.pwr.wakeIn ∧
    l ≠ bit en 4)) ∧
    (let s : State := {}
    s.snt.warmDue = false ∧
    s.pwr.lateWake = none ∧
    s.pwr.trans = none ∧
    s.pwr.pmMid = none ∧
    s.log.pfWant = 0) := by
  refine ⟨?_, ?_, ?_, ?_, ?_⟩ <;> decide +kernel

theorem witness_MirrorLinkAndPairing_1 :
    (let s : State := {}
    s.snt.warmDue = false ∧ (let m := s.mir
    ∃ p ∈ (([(.linkUp, true), (.linkDown, false)] : List (Instr × Bool))), (s.domStill 3 = true ∨ m.link = p.2))) ∧
    (let s : State := {}
    s.snt.warmDue = false ∧ (let m := s.mir
    ∃ p ∈ (([(.linkUp, true), (.linkDown, false)] : List (Instr × Bool))), s.domStill 3 = false ∧
    m.link ≠ p.2 ∧
    bit (s.reg 0x2C00) 7 = false)) ∧
    (let s : State := { regs := [(11264, 128#32)], ldr := { phase := .opened } }
    s.snt.warmDue = false ∧ (let m := s.mir
    ∃ p ∈ (([(.linkUp, true), (.linkDown, false)] : List (Instr × Bool))), s.domStill 3 = false ∧
    m.link ≠ p.2 ∧
    bit (s.reg 0x2C00) 7 = true ∧
    s.serving = true ∧
    (s.src 0x5A14).q = [])) ∧
    (let s : State := { rank := 1000000, mir := { role := .primary, link := true } }
    s.snt.warmDue = false ∧ (let m := s.mir
    let up := m.link = true ∧ s.domStill 3 = false
    let paired := m.role = .primary ∨ m.role = .standby ∨ m.role = .resync
    let hbp := fld (s.reg 0x2C04) 0 8
    up ∧
    paired ∧
    m.lastTx + 64 * (if hbp = 0 then 1 else hbp) ≤ s.rank)) ∧
    (let s : State := { rank := 1000000, mir := { role := .solo, link := true } }
    s.snt.warmDue = false ∧ (let m := s.mir
    let up := m.link = true ∧ s.domStill 3 = false
    up ∧
    m.role = .solo ∧
    m.helloAt + 3200 ≤ s.rank)) ∧
    (let s : State := {}
    s.snt.warmDue = false ∧ (let m := s.mir
    let up := m.link = true ∧ s.domStill 3 = false
    (¬up ∨ m.role = .off ∨ m.role = .takeover))) ∧
    (let s : State := { mir := { role := .solo, link := true } }
    let h : HelloBody := { good := false, pairRole := false, served := false, fence := false, epoch := 0#32 }
    s.snt.warmDue = false ∧ (let m := s.mir
    let up := m.link = true ∧ s.domStill 3 = false
    up ∧
    m.role ≠ .off ∧
    h.good = false)) ∧
    (let s : State := { mir := { role := .solo, link := true } }
    let b : BeatBody := { good := false, nak := false, ackseq := 2#32 }
    s.snt.warmDue = false ∧ (let m := s.mir
    let up := m.link = true ∧ s.domStill 3 = false
    up ∧
    m.role ≠ .off ∧
    b.good = false)) := by
  refine ⟨?_, ?_, ?_, ?_, ?_, ?_, ?_, ?_⟩ <;> decide +kernel

theorem witness_MirrorLinkAndPairing_2 :
    (let s : State := { mir := { role := .solo, link := true } }
    s.snt.warmDue = false ∧ (let m := s.mir
    let up := m.link = true ∧ s.domStill 3 = false
    up ∧
    m.role ≠ .off)) ∧
    (let s : State := { mir := { role := .solo, link := true } }
    let f : Frame := { good := true, fseq := 0#32, last := true, entries := [] }
    s.snt.warmDue = false ∧ (let m := s.mir
    let up := m.link = true ∧ s.domStill 3 = false
    up ∧
    m.role ≠ .off ∧
    (f.good = false ∨ f.entries = [] ∨ 16 < f.entries.length))) ∧
    (let s : State := {}
    let h : HelloBody := { good := true, pairRole := true, served := true, fence := true, epoch := 0#32 }
    let b : BeatBody := { good := true, nak := false, ackseq := 2#32 }
    let f : Frame := { good := true, fseq := 0#32, last := true, entries := [] }
    s.snt.warmDue = false ∧ (let m := s.mir
    let up := m.link = true ∧ s.domStill 3 = false
    (¬up ∨ m.role = .off) ∧
    ∃ c ∈ (([.hello h, .heartbeat b, .leaveFrame false, .leaveFrame true, .journal f, .snapshot f] : List Instr)), True)) ∧
    (let s : State := { mir := { link := true } }
    let h : HelloBody := { good := true, pairRole := true, served := true, fence := true, epoch := 0#32 }
    s.snt.warmDue = false ∧
    s.mir.link = true ∧
    s.domStill 3 = false ∧
    h.good = true ∧ (let m := s.mir
    m.role ≠ .solo ∧
    ((m.role ≠ .standby ∧ m.role ≠ .resync) ∨ h.epoch ≠ s.ldr.epoch ∨ h.served = false))) ∧
    (let s : State := { mir := { role := .standby, link := true } }
    let h : HelloBody := { good := true, pairRole := true, served := true, fence := true, epoch := 0#32 }
    s.snt.warmDue = false ∧
    s.mir.link = true ∧
    s.domStill 3 = false ∧
    h.good = true ∧ (let m := s.mir
    (m.role = .standby ∨ m.role = .resync) ∧
    h.epoch = s.ldr.epoch ∧
    h.served = true)) ∧
    (let s : State := { mir := { role := .solo, link := true } }
    let h : HelloBody := { good := true, pairRole := true, served := true, fence := true, epoch := 9#32 }
    s.snt.warmDue = false ∧
    s.mir.link = true ∧
    s.domStill 3 = false ∧
    h.good = true ∧ (let m := s.mir
    m.role = .solo ∧
    h.epoch ≠ s.ldr.epoch)) ∧
    (let s : State := { mir := { role := .solo, link := true, served := true } }
    let h : HelloBody := { good := true, pairRole := true, served := false, fence := true, epoch := 0#32 }
    s.snt.warmDue = false ∧
    s.mir.link = true ∧
    s.domStill 3 = false ∧
    h.good = true ∧ (let m := s.mir
    m.role = .solo ∧
    h.epoch = s.ldr.epoch ∧
    m.served = true ∧
    h.served = false)) ∧
    (let s : State := { mir := { role := .solo, link := true } }
    let h : HelloBody := { good := true, pairRole := true, served := true, fence := true, epoch := 0#32 }
    s.snt.warmDue = false ∧
    s.mir.link = true ∧
    s.domStill 3 = false ∧
    h.good = true ∧ (let m := s.mir
    m.role = .solo ∧
    h.epoch = s.ldr.epoch ∧
    m.served = false ∧
    h.served = true)) := by
  refine ⟨?_, ?_, ?_, ?_, ?_, ?_, ?_, ?_⟩ <;> decide +kernel

theorem witness_MirrorLinkAndPairing_3 :
    (let s : State := { mir := { role := .solo, link := true, served := true } }
    let h : HelloBody := { good := true, pairRole := true, served := true, fence := false, epoch := 0#32 }
    s.snt.warmDue = false ∧
    s.mir.link = true ∧
    s.domStill 3 = false ∧
    h.good = true ∧ (let m := s.mir
    m.role = .solo ∧
    h.epoch = s.ldr.epoch ∧
    m.served = true ∧
    h.served = true ∧
    m.fence = h.fence)) ∧
    (let s : State := { mir := { role := .solo, link := true, served := true, fence := true } }
    let h : HelloBody := { good := true, pairRole := true, served := true, fence := false, epoch := 0#32 }
    s.snt.warmDue = false ∧
    s.mir.link = true ∧
    s.domStill 3 = false ∧
    h.good = true ∧ (let m := s.mir
    m.role = .solo ∧
    h.epoch = s.ldr.epoch ∧
    m.served = true ∧
    h.served = true ∧
    m.fence = true ∧
    h.fence = false)) ∧
    (let s : State := { mir := { role := .solo, link := true, served := true } }
    let h : HelloBody := { good := true, pairRole := true, served := true, fence := true, epoch := 0#32 }
    s.snt.warmDue = false ∧
    s.mir.link = true ∧
    s.domStill 3 = false ∧
    h.good = true ∧ (let m := s.mir
    m.role = .solo ∧
    h.epoch = s.ldr.epoch ∧
    m.served = true ∧
    h.served = true ∧
    m.fence = false ∧
    h.fence = true)) ∧
    (let s : State := { mir := { role := .solo, link := true } }
    let h : HelloBody := { good := true, pairRole := false, served := false, fence := true, epoch := 0#32 }
    s.snt.warmDue = false ∧
    s.mir.link = true ∧
    s.domStill 3 = false ∧
    h.good = true ∧ (let m := s.mir
    m.role = .solo ∧
    h.epoch = s.ldr.epoch ∧
    m.served = false ∧
    h.served = false ∧
    m.strap = h.pairRole)) ∧
    (let s : State := { mir := { role := .solo, link := true, strap := true } }
    let h : HelloBody := { good := true, pairRole := false, served := false, fence := true, epoch := 0#32 }
    s.snt.warmDue = false ∧
    s.mir.link = true ∧
    s.domStill 3 = false ∧
    h.good = true ∧ (let m := s.mir
    m.role = .solo ∧
    h.epoch = s.ldr.epoch ∧
    m.served = false ∧
    h.served = false ∧
    m.strap = true ∧
    h.pairRole = false)) ∧
    (let s : State := { mir := { role := .solo, link := true } }
    let h : HelloBody := { good := true, pairRole := true, served := false, fence := true, epoch := 0#32 }
    s.snt.warmDue = false ∧
    s.mir.link = true ∧
    s.domStill 3 = false ∧
    h.good = true ∧ (let m := s.mir
    m.role = .solo ∧
    h.epoch = s.ldr.epoch ∧
    m.served = false ∧
    h.served = false ∧
    m.strap = false ∧
    h.pairRole = true)) := by
  refine ⟨?_, ?_, ?_, ?_, ?_, ?_⟩ <;> decide +kernel

theorem witness_MirrorJournal_1 :
    (let s : State := { mir := { role := .standby, link := true } }
    let f : Frame := { good := true, fseq := 1#32, last := true, entries := [(.inst 5 1 1 0 3 0x0000004d#32)] }
    s.snt.warmDue = false ∧
    s.mir.link = true ∧
    s.domStill 3 = false ∧ (let m := s.mir
    (m.role = .standby ∨ m.role = .resync) ∧
    frameGood f = true ∧ (let p : Nat := 5
    let n : Nat := 1
    let held : Nat := 1
    let dest : Nat := 0
    let seq : Nat := 3
    let pay : BitVec 32 := 77#32
    p < 0x5A40 ∧
    f.fseq = m.rxseq + 1 ∧
    f.entries = [.inst p n held dest seq pay]))) ∧
    (let s : State := { mir := { role := .standby, link := true } }
    let f : Frame := { good := true, fseq := 1#32, last := true, entries := [(.lock 3 true false false 2)] }
    s.snt.warmDue = false ∧
    s.mir.link = true ∧
    s.domStill 3 = false ∧ (let m := s.mir
    (m.role = .standby ∨ m.role = .resync) ∧
    frameGood f = true ∧ (let n : Nat := 3
    let hd : Bool := true
    let oc : Bool := false
    let bu : Bool := false
    let e : Nat := 2
    n < 64 ∧
    f.fseq = m.rxseq + 1 ∧
    f.entries = [.lock n hd oc bu e]))) ∧
    (let s : State := { mir := { role := .standby, link := true } }
    let f : Frame := { good := true, fseq := 1#32, last := true, entries := [(.base 2 0 0x00000005#32 0x00000006#32)] }
    s.snt.warmDue = false ∧
    s.mir.link = true ∧
    s.domStill 3 = false ∧ (let m := s.mir
    (m.role = .standby ∨ m.role = .resync) ∧
    frameGood f = true ∧ (let n : Nat := 2
    let c : Nat := 0
    let ofs : BitVec 32 := 5#32
    let turns : BitVec 32 := 6#32
    n < 16 ∧
    f.fseq = m.rxseq + 1 ∧
    f.entries = [.base n c ofs turns]))) ∧
    (let s : State := { mir := { role := .standby, link := true } }
    let f : Frame := { good := true, fseq := 1#32, last := true, entries := [(.cnt 3 3 1 0x0000000000000004#64)] }
    s.snt.warmDue = false ∧
    s.mir.link = true ∧
    s.domStill 3 = false ∧ (let m := s.mir
    (m.role = .standby ∨ m.role = .resync) ∧
    frameGood f = true ∧ (let t : Nat := 3
    let w : Nat := 3
    let k : Nat := 1
    let v : BitVec 64 := 4#64
    tblHas t k = true ∧
    w < 16 ∧
    (¬((t = 0x19 ∨ t = 0x1A) ∧ w % 2 = 0)) ∧
    f.fseq = m.rxseq + 1 ∧
    f.entries = [.cnt t w k v]))) ∧
    (let s : State := { mir := { role := .standby, link := true } }
    let f : Frame := { good := true, fseq := 1#32, last := true, entries := [(.cnt 25 2 0 0x0000000000000004#64)] }
    s.snt.warmDue = false ∧
    s.mir.link = true ∧
    s.domStill 3 = false ∧ (let m := s.mir
    (m.role = .standby ∨ m.role = .resync) ∧
    frameGood f = true ∧ (let t : Nat := 25
    let w : Nat := 2
    let k : Nat := 0
    let v : BitVec 64 := 4#64
    tblHas t k = true ∧
    w < 16 ∧
    w % 2 = 0 ∧
    (t = 0x19 ∨ t = 0x1A) ∧
    f.fseq = m.rxseq + 1 ∧
    f.entries = [.cnt t w k v]))) ∧
    (let s : State := { mir := { role := .resync, link := true, gapped := true } }
    let f : Frame := { good := true, fseq := 0#32, last := true, entries := [(.lock 3 true false false 2)] }
    s.snt.warmDue = false ∧
    s.mir.link = true ∧
    s.domStill 3 = false ∧ (let m := s.mir
    (m.role = .standby ∨ m.role = .resync) ∧
    frameGood f = true ∧
    f.fseq ≠ m.rxseq + 1 ∧
    m.gapped = true)) ∧
    (let s : State := { mir := { role := .standby, link := true } }
    let f : Frame := { good := true, fseq := 0#32, last := true, entries := [(.lock 3 true false false 2)] }
    s.snt.warmDue = false ∧
    s.mir.link = true ∧
    s.domStill 3 = false ∧ (let m := s.mir
    (m.role = .standby ∨ m.role = .resync) ∧
    frameGood f = true ∧
    f.fseq ≠ m.rxseq + 1 ∧
    m.gapped = false)) ∧
    (let s : State := { mir := { role := .resync, link := true } }
    let f : Frame := { good := true, fseq := 1#32, last := true, entries := [(.inst 5 1 1 0 3 0x0000004d#32)] }
    s.snt.warmDue = false ∧
    s.mir.link = true ∧
    s.domStill 3 = false ∧ (let m := s.mir
    m.role = .resync ∧
    frameGood f = true ∧
    f.fseq = m.rxseq + 1 ∧ (let p : Nat := 5
    let n : Nat := 1
    let held : Nat := 1
    let dest : Nat := 0
    let seq : Nat := 3
    let pay : BitVec 32 := 77#32
    p < 0x5A40 ∧
    f.entries = [.inst p n held dest seq pay]))) := by
  refine ⟨?_, ?_, ?_, ?_, ?_, ?_, ?_, ?_⟩ <;> decide +kernel

theorem witness_MirrorJournal_2 :
    (let s : State := { mir := { role := .resync, link := true } }
    let f : Frame := { good := true, fseq := 1#32, last := true, entries := [(.cnt 3 3 1 0x0000000000000004#64)] }
    s.snt.warmDue = false ∧
    s.mir.link = true ∧
    s.domStill 3 = false ∧ (let m := s.mir
    m.role = .resync ∧
    frameGood f = true ∧
    f.fseq = m.rxseq + 1 ∧ (let t : Nat := 3
    let w : Nat := 3
    let k : Nat := 1
    let v : BitVec 64 := 4#64
    tblHas t k = true ∧
    w < 16 ∧
    f.entries = [.cnt t w k v]))) ∧
    (let s : State := { mir := { role := .solo, link := true } }
    let f : Frame := { good := true, fseq := 0#32, last := true, entries := [(.lock 3 true false false 2)] }
    s.snt.warmDue = false ∧
    s.mir.link = true ∧
    s.domStill 3 = false ∧ (let m := s.mir
    m.role ≠ .off ∧
    m.role ≠ .resync ∧
    frameGood f = true)) ∧
    (let s : State := { mir := { role := .standby, link := true } }
    let b : BeatBody := { good := true, nak := false, ackseq := 2#32 }
    s.snt.warmDue = false ∧
    s.mir.link = true ∧
    s.domStill 3 = false ∧ (let m := s.mir
    (m.role = .standby ∨ m.role = .resync) ∧
    b.good = true)) ∧
    (let s : State := { mir := { role := .primary, link := true } }
    let b : BeatBody := { good := true, nak := false, ackseq := 2#32 }
    s.snt.warmDue = false ∧
    s.mir.link = true ∧
    s.domStill 3 = false ∧ (let m := s.mir
    m.role = .primary ∧
    b.good = true)) ∧
    (let s : State := { mir := { role := .primary, link := true, snapOn := true, snapLeft := 3 } }
    s.snt.warmDue = false ∧
    s.mir.link = true ∧
    s.domStill 3 = false ∧ (let m := s.mir
    m.role = .primary ∧
    m.snapOn = true ∧
    0 < m.snapLeft)) ∧
    (let s : State := { mir := { role := .primary, link := true } }
    s.snt.warmDue = false ∧
    s.mir.link = true ∧
    s.domStill 3 = false ∧ (let m := s.mir
    m.role = .primary ∧
    (m.snapOn = false ∨ m.snapLeft = 0) ∧ (let l := (m.journal.filter fun x => decide (x.fseq = none)).take 16
    l = []))) ∧
    (let s : State := { mir := { role := .primary, link := true, journal := [{ at_ := 900000, fseq := none, e := (.lock 3 true false false 0) }] } }
    s.snt.warmDue = false ∧
    s.mir.link = true ∧
    s.domStill 3 = false ∧ (let m := s.mir
    m.role = .primary ∧
    (m.snapOn = false ∨ m.snapLeft = 0) ∧ (let l := (m.journal.filter fun x => decide (x.fseq = none)).take 16
    l ≠ []))) ∧
    (let s : State := { rank := 1000000, mir := { role := .primary, link := true, journal := [{ at_ := 900000, fseq := none, e := (.lock 6 true false false 0) }] } }
    s.snt.warmDue = false ∧
    s.mir.link = true ∧
    s.domStill 3 = false ∧ (let m := s.mir
    let slag := fld (s.reg 0x2C04) 20 8
    let late := fun (x : JItem) => x.fseq = none ∧ x.at_ + 64 * (if slag = 0 then 1 else slag) < s.rank
    m.role = .primary ∧
    m.behind = false ∧
    (∃ x ∈ m.journal, late x))) ∧
    (let s : State := { mir := { role := .primary, link := true } }
    s.snt.warmDue = false ∧
    s.mir.link = true ∧
    s.domStill 3 = false ∧ (let m := s.mir
    let slag := fld (s.reg 0x2C04) 20 8
    let late := fun (x : JItem) => x.fseq = none ∧ x.at_ + 64 * (if slag = 0 then 1 else slag) < s.rank
    m.role = .primary ∧
    (m.behind = true ∨ (∀ x ∈ m.journal, ¬late x)))) ∧
    (let s : State := { mir := { link := true } }
    s.snt.warmDue = false ∧
    s.mir.link = true ∧
    s.domStill 3 = false ∧ (let m := s.mir
    m.role ≠ .primary)) := by
  refine ⟨?_, ?_, ?_, ?_, ?_, ?_, ?_, ?_, ?_, ?_⟩ <;> decide +kernel

theorem witness_MirrorLoss_1 :
    (let s : State := {}
    s.snt.warmDue = false ∧
    s.domStill 3 = false ∧ (let m := s.mir
    let hbp := fld (s.reg 0x2C04) 0 8
    let miss := fld (s.reg 0x2C04) 8 3
    let paired := m.role = .primary ∨ m.role = .standby ∨ m.role = .resync
    let gone := m.lastRx + 64 * (if hbp = 0 then 1 else hbp) * (if miss = 0 then 1 else miss) ≤ s.rank
    (¬paired ∨ ¬gone))) ∧
    (let s : State := {}
    s.snt.warmDue = false ∧
    s.domStill 3 = false ∧ (let m := s.mir
    let paired := m.role = .primary ∨ m.role = .standby ∨ m.role = .resync
    ¬paired)) ∧
    (let s : State := {}
    s.snt.warmDue = false ∧
    s.domStill 3 = false ∧ (let m := s.mir
    let paired := m.role = .primary ∨ m.role = .standby ∨ m.role = .resync
    ¬paired ∧
    s.regReady = true)) ∧
    (let s : State := { mir := { role := .primary } }
    s.snt.warmDue = false ∧
    s.domStill 3 = false ∧ (let m := s.mir
    let hbp := fld (s.reg 0x2C04) 0 8
    let miss := fld (s.reg 0x2C04) 8 3
    let gone := m.lastRx + 64 * (if hbp = 0 then 1 else hbp) * (if miss = 0 then 1 else miss) ≤ s.rank
    ∃ p ∈ (([(.partnerLoss, 1, gone), (.leaveFrame true, 3, m.link = true), (.leave, 3, s.regReady = true)] : List (Instr × Nat × Bool))), p.2.2 ∧
    m.role = .primary)) ∧
    (let s : State := { mir := { role := .standby } }
    s.snt.warmDue = false ∧
    s.domStill 3 = false ∧ (let m := s.mir
    let hbp := fld (s.reg 0x2C04) 0 8
    let miss := fld (s.reg 0x2C04) 8 3
    let gone := m.lastRx + 64 * (if hbp = 0 then 1 else hbp) * (if miss = 0 then 1 else miss) ≤ s.rank
    ∃ p ∈ (([(.partnerLoss, 1, gone), (.leaveFrame true, 3, m.link = true), (.leave, 3, s.regReady = true)] : List (Instr × Nat × Bool))), p.2.2 ∧
    (m.role = .standby ∨ (m.role = .resync ∧ bit (s.reg 0x2C00) 6 = true)))) ∧
    (let s : State := { mir := { role := .resync } }
    s.snt.warmDue = false ∧
    s.domStill 3 = false ∧ (let m := s.mir
    let hbp := fld (s.reg 0x2C04) 0 8
    let miss := fld (s.reg 0x2C04) 8 3
    let gone := m.lastRx + 64 * (if hbp = 0 then 1 else hbp) * (if miss = 0 then 1 else miss) ≤ s.rank
    ∃ p ∈ (([(.partnerLoss, 1, gone), (.leaveFrame true, 3, m.link = true), (.leave, 3, s.regReady = true)] : List (Instr × Nat × Bool))), p.2.2 ∧
    m.role = .resync ∧
    bit (s.reg 0x2C00) 6 = false)) ∧
    (let s : State := { mir := { role := .primary } }
    s.snt.warmDue = false ∧
    s.domStill 3 = false ∧ (let m := s.mir
    let paired := m.role = .primary ∨ m.role = .standby ∨ m.role = .resync
    paired ∧
    s.regReady = true)) ∧
    (let s : State := {}
    s.snt.warmDue = false ∧
    s.domStill 3 = false ∧ (let m := s.mir
    (m.fence = false ∨ m.fack = true))) := by
  refine ⟨?_, ?_, ?_, ?_, ?_, ?_, ?_, ?_⟩ <;> decide +kernel

theorem witness_MirrorLoss_2 :
    (let s : State := { mir := { fence := true } }
    s.snt.warmDue = false ∧
    s.domStill 3 = false ∧ (let m := s.mir
    m.fence = true ∧
    m.fack = false ∧
    (m.role ≠ .takeover ∨ m.fto = true))) ∧
    (let s : State := { mir := { role := .takeover, fence := true } }
    s.snt.warmDue = false ∧
    s.domStill 3 = false ∧ (let m := s.mir
    m.fence = true ∧
    m.fack = false ∧
    m.role = .takeover ∧
    m.fto = false ∧
    m.plock = [])) ∧
    (let s : State := { mir := { role := .takeover, fence := true, plock := [(1, (true, (true, (true, 1))))] } }
    s.snt.warmDue = false ∧
    s.domStill 3 = false ∧ (let m := s.mir
    m.fence = true ∧
    m.fack = false ∧
    m.role = .takeover ∧
    m.fto = false ∧ (let n : Nat := 1
    let oc : Bool := true
    let bu : Bool := true
    let e : Nat := 1
    n < 64 ∧
    m.plock = [(n, true, oc, bu, e)]))) ∧
    (let s : State := { rank := 1000000, mir := { role := .takeover, fence := true } }
    s.snt.warmDue = false ∧
    s.domStill 3 = false ∧ (let m := s.mir
    let ftmo := fld (s.reg 0x2C04) 12 8
    m.fence = true ∧
    m.fack = false ∧
    m.role = .takeover ∧
    m.fto = false ∧
    m.fenceAt + 64 * (if ftmo = 0 then 1 else ftmo) ≤ s.rank)) ∧
    (let s : State := { mir := { role := .takeover, fence := true } }
    s.snt.warmDue = false ∧
    s.domStill 3 = false ∧ (let m := s.mir
    let ftmo := fld (s.reg 0x2C04) 12 8
    m.fence = true ∧
    m.fack = false ∧
    m.role = .takeover ∧
    m.fto = false ∧
    s.rank < m.fenceAt + 64 * (if ftmo = 0 then 1 else ftmo))) ∧
    (let s : State := { mir := { role := .takeover, takeAt := (some 2304) } }
    s.snt.warmDue = false ∧
    s.domStill 3 = false ∧ (let m := s.mir
    let t : Nat := 2304
    m.takeAt = some t ∧
    m.role = .takeover ∧
    t < 0x5A40)) ∧
    (let s : State := { mir := { role := .takeover, takeAt := (some 0) } }
    s.snt.warmDue = false ∧
    s.domStill 3 = false ∧ (let m := s.mir
    let t : Nat := 0
    m.takeAt = some t ∧
    m.role = .takeover ∧
    t < 0x5A40 ∧
    m.psrc = [])) ∧
    (let s : State := { mir := { role := .takeover, psrc := [(2304, (0, (1, (0, (1, 9#32)))))], takeAt := (some 2304) } }
    s.snt.warmDue = false ∧
    s.domStill 3 = false ∧ (let m := s.mir
    let t : Nat := 2304
    m.takeAt = some t ∧
    m.role = .takeover ∧
    t < 0x5A40 ∧ (let p : Nat := 2304
    let n : Nat := 0
    let held : Nat := 1
    let dest : Nat := 0
    let seq : Nat := 1
    let pay : BitVec 32 := 9#32
    t ≤ p ∧
    p < t + 8 ∧
    isCtx p = false ∧
    s.isC0 p = false ∧
    (s.src p).q = [] ∧
    m.psrc = [(p, n, held, dest, seq, pay)]))) := by
  refine ⟨?_, ?_, ?_, ?_, ?_, ?_, ?_, ?_⟩ <;> decide +kernel

theorem witness_MirrorLoss_3 :
    (let s : State := { mir := { role := .takeover, psrc := [(2304, (0, (1, (0, (1, 9#32)))))], takeAt := (some 2304) } }
    s.snt.warmDue = false ∧
    s.domStill 3 = false ∧ (let m := s.mir
    let t : Nat := 2304
    m.takeAt = some t ∧
    m.role = .takeover ∧
    t < 0x5A40 ∧ (let p : Nat := 2304
    let n : Nat := 0
    let held : Nat := 1
    let dest : Nat := 0
    let seq : Nat := 1
    let pay : BitVec 32 := 9#32
    t ≤ p ∧
    p < t + 8 ∧
    isCtx p = false ∧
    s.isC0 p = false ∧
    (s.src p).q = [] ∧
    m.psrc = [(p, n, held, dest, seq, pay)] ∧
    n = 0))) ∧
    (let s : State := { mir := { role := .takeover, psrc := [(2304, (1, (1, (0, (1, 9#32)))))], takeAt := (some 2304) } }
    s.snt.warmDue = false ∧
    s.domStill 3 = false ∧ (let m := s.mir
    let t : Nat := 2304
    m.takeAt = some t ∧
    m.role = .takeover ∧
    t < 0x5A40 ∧ (let p : Nat := 2304
    let n : Nat := 1
    let held : Nat := 1
    let dest : Nat := 0
    let seq : Nat := 1
    let pay : BitVec 32 := 9#32
    t ≤ p ∧
    p < t + 8 ∧
    isCtx p = false ∧
    s.isC0 p = false ∧
    (s.src p).q = [] ∧
    m.psrc = [(p, n, held, dest, seq, pay)] ∧
    n ≠ 0))) ∧
    (let s : State := { mir := { role := .takeover, fto := true } }
    s.snt.warmDue = false ∧
    s.domStill 3 = false ∧ (let m := s.mir
    s.regReady = true ∧
    m.role = .takeover ∧
    m.fto = true)) ∧
    (let s : State := {}
    s.snt.warmDue = false ∧
    s.domStill 3 = false ∧ (let m := s.mir
    s.regReady = true ∧
    m.role ≠ .standby ∧
    (m.role ≠ .takeover ∨ m.fto = false))) := by
  refine ⟨?_, ?_, ?_, ?_⟩ <;> decide +kernel

theorem witness_SentinelCommands_1 :
    (let s : State := { pwr := { dom := [(0, .off)] } }
    s.snt.warmDue = false ∧
    s.regReady = true ∧
    s.domStill 0 = true ∧
    ∃ c ∈ (([.safe, .leaveSafe, .warm, .pcreq] : List Instr)), True) ∧
    (let s : State := { snt := { safe := true } }
    s.snt.warmDue = false ∧
    PortActs s 0 ∧
    s.snt.safe = true) ∧
    (let s : State := {}
    s.snt.warmDue = false ∧
    PortActs s 0 ∧
    s.snt.safe = false) ∧
    (let s : State := { snt := { safe := true } }
    s.snt.warmDue = false ∧
    PortActs s 0 ∧
    s.snt.safe = true ∧
    s.snt.pcreq = false ∧
    (s.mir.role ≠ .takeover ∨ s.mir.fack = true) ∧
    s.snt.entered ≠ some s.rank) ∧
    (let s : State := {}
    s.snt.warmDue = false ∧
    PortActs s 0 ∧
    (s.snt.safe = false ∨ s.snt.pcreq = true ∨ (s.mir.role = .takeover ∧ s.mir.fack = false) ∨ s.snt.entered = some s.rank)) ∧
    (let s : State := {}
    s.snt.warmDue = false ∧
    PortActs s 0 ∧
    s.pwr.trans = none) ∧
    (let s : State := { pwr := { trans := (some { ph := .asking, tgt := [], ropen := false, raise := [], acked := [], ask := [], asked := 0, stopped := [2], await := [], at_ := 0, next := 0, wake := false, pm := false, cold := false }) } }
    s.snt.warmDue = false ∧
    PortActs s 0 ∧ (let t : Trans := { ph := .asking, tgt := [], ropen := false, raise := [], acked := [], ask := [], asked := 0, stopped := [2], await := [], at_ := 0, next := 0, wake := false, pm := false, cold := false }
    s.pwr.trans = some t ∧
    t.ph = .asking ∧
    t.stopped ≠ [])) ∧
    (let s : State := { snt := { funcs := [(5408, { step := 4 })] } }
    s.snt.warmDue = false ∧
    PortActs s 0 ∧
    (s.func 5408).step = 4) := by
  refine ⟨?_, ?_, ?_, ?_, ?_, ?_, ?_, ?_⟩
  · decide +kernel
  · unfold PortActs; decide +kernel
  · unfold PortActs; decide +kernel
  · unfold PortActs; decide +kernel
  · unfold PortActs; decide +kernel
  · unfold PortActs; decide +kernel
  · unfold PortActs; decide +kernel
  · unfold PortActs; decide +kernel

theorem witness_SentinelCommands_2 :
    (let s : State := {}
    s.snt.warmDue = false ∧
    PortActs s 0 ∧
    (s.func 5408).step ≠ 4) ∧
    (let s : State := {}
    s.snt.warmDue = false ∧
    PortActs s 0 ∧ (let f : Nat := 0
    f < 5409)) ∧
    (let s : State := { edge := { reinits := [1] } }
    s.snt.warmDue = false ∧ (let f : Nat := 1
    f < 5409 ∧
    s.edge.reinits = [f] ∧
    (s.func f).busy = false ∧
    (s.func f).stepAt ≠ some s.rank ∧
    bit (s.reg 0x3000) 1 = false)) ∧
    (let s : State := { edge := { reinits := [1] } }
    s.snt.warmDue = false ∧ (let f : Nat := 1
    f < 5409 ∧
    s.edge.reinits = [f] ∧
    (s.func f).busy = false ∧
    (s.func f).stepAt ≠ some s.rank ∧
    bit (s.reg 0x3000) 1 = false ∧
    f < 512 ∧
    ((s.eng f).st = .idle ∨ (s.eng f).st = .stopped) ∧
    (∀ o ∈ s.occs, o.2.engine ≠ some f) ∧
    s.seqsOf f = [])) ∧
    (let s : State := { edge := { reinits := [4640] } }
    s.snt.warmDue = false ∧ (let f : Nat := 4640
    f < 5409 ∧
    s.edge.reinits = [f] ∧
    (s.func f).busy = false ∧
    (s.func f).stepAt ≠ some s.rank ∧
    bit (s.reg 0x3000) 1 = false ∧
    4640 ≤ f ∧
    f < 5152)) ∧
    (let s : State := { edge := { reinits := [5155] } }
    s.snt.warmDue = false ∧ (let f : Nat := 5155
    f < 5409 ∧
    s.edge.reinits = [f] ∧
    (s.func f).busy = false ∧
    (s.func f).stepAt ≠ some s.rank ∧
    bit (s.reg 0x3000) 1 = false ∧
    5152 ≤ f ∧
    f < 5408)) ∧
    (let s : State := { edge := { reinits := [5408] } }
    s.snt.warmDue = false ∧ (let f : Nat := 5408
    f < 5409 ∧
    s.edge.reinits = [f] ∧
    (s.func f).busy = false ∧
    (s.func f).stepAt ≠ some s.rank ∧
    bit (s.reg 0x3000) 1 = false ∧
    f = 5408)) := by
  refine ⟨?_, ?_, ?_, ?_, ?_, ?_, ?_⟩
  · unfold PortActs; decide +kernel
  · unfold PortActs; decide +kernel
  · decide +kernel
  · decide +kernel
  · decide +kernel
  · decide +kernel
  · decide +kernel

theorem witness_FaultsAndLadders_1 :
    (let s : State := {}
    let g : Nat := 0
    let rt : Bool := true
    let ck : Clock := .slow
    s.snt.warmDue = false ∧ (let x := s.func 5408
    let top := fld (s.reg 0x3000) 5 2
    let found := ([(.clockFault ck, 0x09, 2), (.crcRecheck true, 0x0A, 1), (.scrub (.uncorrectable 5408 false rt), 0x01, 1),
          (.scrub (.uncorrectable g true rt), 0x02, 1)] : List (Instr × Nat × Nat))
    s.domStill 0 = false ∧
    s.domStill 2 = false ∧
    (ck = .link → s.domStill 3 = false) ∧
    ∃ p ∈ (found), x.busy = false ∧
    x.tmr = none ∧
    x.step = 0 ∧
    p.2.2 ≤ top + 1)) ∧
    (let s : State := { snt := { funcs := [(5408, { busy := true })] } }
    let g : Nat := 0
    let rt : Bool := true
    let ck : Clock := .slow
    s.snt.warmDue = false ∧ (let x := s.func 5408
    let found := ([(.clockFault ck, 0x09, 2), (.crcRecheck true, 0x0A, 1), (.scrub (.uncorrectable 5408 false rt), 0x01, 1),
          (.scrub (.uncorrectable g true rt), 0x02, 1)] : List (Instr × Nat × Nat))
    s.domStill 0 = false ∧
    s.domStill 2 = false ∧
    (ck = .link → s.domStill 3 = false) ∧
    ∃ p ∈ (found), x.busy = true ∧
    x.step ≠ 3)) ∧
    (let s : State := { snt := { funcs := [(5408, { step := 2, tmr := (some 0) })] } }
    let g : Nat := 0
    let rt : Bool := true
    let ck : Clock := .slow
    s.snt.warmDue = false ∧ (let x := s.func 5408
    let top := fld (s.reg 0x3000) 5 2
    let found := ([(.clockFault ck, 0x09, 2), (.crcRecheck true, 0x0A, 1), (.scrub (.uncorrectable 5408 false rt), 0x01, 1),
          (.scrub (.uncorrectable g true rt), 0x02, 1)] : List (Instr × Nat × Nat))
    s.domStill 0 = false ∧
    s.domStill 2 = false ∧
    (ck = .link → s.domStill 3 = false) ∧
    ∃ p ∈ (found), x.busy = false ∧
    x.tmr.isSome = true ∧
    x.step = 2 ∧
    2 ≤ top ∧
    s.pwr.trans = none ∧
    s.seqs = [])) ∧
    (let s : State := { pwr := { clkOff := [3] } }
    let ck : Clock := .link
    s.snt.warmDue = false ∧
    ck = .link ∧
    s.domStill 3 = true) ∧
    (let s : State := {}
    s.snt.warmDue = false) ∧
    (let s : State := {}
    let g : Nat := 0
    s.snt.warmDue = false ∧
    g < 5409 ∧
    (s.func g).tmr = none) ∧
    (let s : State := { snt := { funcs := [(5, { tmr := (some 0), len := 1 })] } }
    let g : Nat := 5
    s.snt.warmDue = false ∧
    g < 5409 ∧ (let t : Nat := 0
    (s.func g).tmr = some t ∧
    s.slowEdge < t + (s.func g).len)) ∧
    (let s : State := { snt := { funcs := [(5, { tmr := (some 0) })] } }
    let g : Nat := 5
    s.snt.warmDue = false ∧
    g < 5409 ∧ (let t : Nat := 0
    (s.func g).tmr = some t ∧
    t + (s.func g).len ≤ s.slowEdge)) := by
  refine ⟨?_, ?_, ?_, ?_, ?_, ?_, ?_, ?_⟩ <;> decide +kernel

theorem witness_FaultsAndLadders_2 :
    (let s : State := {}
    let g : Nat := 0
    s.snt.warmDue = false ∧
    g < 512 ∧
    (s.dst g).downFrom = none) ∧
    (let s : State := { rank := 1000000, dsts := [(0, { downFrom := (some 996800) })] }
    let g : Nat := 0
    s.snt.warmDue = false ∧
    g < 512 ∧ (let d : Nat := 996800
    (s.dst g).downFrom = some d ∧
    d + 3200 ≤ s.rank)) ∧
    (let s : State := {}
    s.snt.warmDue = false ∧ (let x := s.func 5408
    x.busy = false)) ∧
    (let s : State := { snt := { funcs := [(5408, { busy := true, cmd := true })] } }
    s.snt.warmDue = false ∧ (let x := s.func 5408
    x.busy = true ∧
    x.cmd = true)) ∧
    (let s : State := { snt := { funcs := [(5408, { step := 1, busy := true })] } }
    s.snt.warmDue = false ∧ (let x := s.func 5408
    x.busy = true ∧
    x.cmd = false ∧
    (x.step = 1 ∨ x.step = 2))) ∧
    (let s : State := { snt := { funcs := [(5408, { step := 2, busy := true })] } }
    s.snt.warmDue = false ∧ (let x := s.func 5408
    let top := fld (s.reg 0x3000) 5 2
    x.busy = true ∧
    x.cmd = false ∧
    (x.step = 1 ∨ x.step = 2) ∧
    x.step = 2 ∧
    2 ≤ top ∧
    s.pwr.trans = none ∧
    s.seqs = [])) := by
  refine ⟨?_, ?_, ?_, ?_, ?_, ?_⟩ <;> decide +kernel

theorem witness_RecordAssembly :
    (let s : State := { log := { clearQ := (some {}) } }
    s.snt.warmDue = false ∧ (let l := s.log
    let due := s.log.asmAt + 8 ≤ s.eng2
    let frz := bit (s.reg 0x3408) 0
    (l.reqs = [] ∧ l.clearQ = none ∨ ¬due ∨ s.domStill 0 = true ∨ (l.drain = true ∧ frz = false)))) ∧
    (let s : State := { rank := 16, log := { reqs := [{}] } }
    let r : Rec := {}
    let rest : List Rec := []
    s.snt.warmDue = false ∧ (let l := s.log
    let due := s.log.asmAt + 8 ≤ s.eng2
    let frz := bit (s.reg 0x3408) 0
    l.reqs = r :: rest ∧
    l.clearQ = none ∧
    r.kind ≠ 0x11 ∧
    due ∧
    s.domStill 0 = false ∧
    l.tally = [] ∧
    rest.length ≤ 32 ∧
    frz = false ∧
    l.drain = false ∧
    l.degr = false ∧
    l.fly.length < 8192)) ∧
    (let s : State := { rank := 1000000, log := { reqs := [{}], degr := true } }
    let r : Rec := {}
    let rest : List Rec := []
    s.snt.warmDue = false ∧ (let l := s.log
    let due := s.log.asmAt + 8 ≤ s.eng2
    let frz := bit (s.reg 0x3408) 0
    l.reqs = r :: rest ∧
    l.clearQ = none ∧
    r.kind ≠ 0x11 ∧
    due ∧
    s.domStill 0 = false ∧
    l.tally = [] ∧
    rest.length ≤ 32 ∧
    frz = false ∧
    l.drain = false ∧
    l.degr = true ∧
    l.area.length < 512)) ∧
    (let s : State := { rank := 1000000, regs := [(13320, 1#32)], log := { reqs := [{}] } }
    let r : Rec := {}
    let rest : List Rec := []
    s.snt.warmDue = false ∧ (let l := s.log
    let due := s.log.asmAt + 8 ≤ s.eng2
    let frz := bit (s.reg 0x3408) 0
    l.reqs = r :: rest ∧
    l.clearQ = none ∧
    r.kind ≠ 0x11 ∧
    due ∧
    s.domStill 0 = false ∧
    l.tally = [] ∧
    rest.length ≤ 32 ∧
    frz = true ∧
    l.side.length < 256)) ∧
    (let s : State := { rank := 1000000, regs := [(13320, 1#32)], log := { reqs := [{}], side := [{}, {}, {}, {}, {}, {}, {}, {}, {}, {}, {}, {}, {}, {}, {}, {}, {}, {}, {}, {}, {}, {}, {}, {}, {}, {}, {}, {}, {}, {}, {}, {}, {}, {}, {}, {}, {}, {}, {}, {}, {}, {}, {}, {}, {}, {}, {}, {}, {}, {}, {}, {}, {}, {}, {}, {}, {}, {}, {}, {}, {}, {}, {}, {}, {}, {}, {}, {}, {}, {}, {}, {}, {}, {}, {}, {}, {}, {}, {}, {}, {}, {}, {}, {}, {}, {}, {}, {}, {}, {}, {}, {}, {}, {}, {}, {}, {}, {}, {}, {}, {}, {}, {}, {}, {}, {}, {}, {}, {}, {}, {}, {}, {}, {}, {}, {}, {}, {}, {}, {}, {}, {}, {}, {}, {}, {}, {}, {}, {}, {}, {}, {}, {}, {}, {}, {}, {}, {}, {}, {}, {}, {}, {}, {}, {}, {}, {}, {}, {}, {}, {}, {}, {}, {}, {}, {}, {}, {}, {}, {}, {}, {}, {}, {}, {}, {}, {}, {}, {}, {}, {}, {}, {}, {}, {}, {}, {}, {}, {}, {}, {}, {}, {}, {}, {}, {}, {}, {}, {}, {}, {}, {}, {}, {}, {}, {}, {}, {}, {}, {}, {}, {}, {}, {}, {}, {}, {}, {}, {}, {}, {}, {}, {}, {}, {}, {}, {}, {}, {}, {}, {}, {}, {}, {}, {}, {}, {}, {}, {}, {}, {}, {}, {}, {}, {}, {}, {}, {}, {}, {}, {}, {}, {}, {}, {}, {}, {}, {}, {}, {}, {}, {}, {}, {}, {}, {}] } }
    let r : Rec := {}
    let rest : List Rec := []
    s.snt.warmDue = false ∧ (let l := s.log
    let due := s.log.asmAt + 8 ≤ s.eng2
    let frz := bit (s.reg 0x3408) 0
    l.reqs = r :: rest ∧
    l.clearQ = none ∧
    r.kind ≠ 0x11 ∧
    due ∧
    s.domStill 0 = false ∧
    l.tally = [] ∧
    rest.length ≤ 32 ∧
    frz = true ∧
    256 ≤ l.side.length)) ∧
    (let s : State := { rank := 16, snt := { funcs := [(5408, { step := 1, busy := true })] }, log := { reqs := [{}] } }
    let r : Rec := {}
    let rest : List Rec := []
    s.snt.warmDue = false ∧ (let l := s.log
    let due := s.log.asmAt + 8 ≤ s.eng2
    let frz := bit (s.reg 0x3408) 0
    let gs := bit (s.reg 0x3400) 1 = false
    l.reqs = r :: rest ∧
    l.clearQ = none ∧
    r.kind ≠ 0x11 ∧
    due ∧
    s.domStill 0 = false ∧
    l.tally = [] ∧
    rest.length ≤ 32 ∧
    frz = false ∧
    l.drain = false ∧
    l.degr = false ∧
    l.area.length < 512 ∧
    (s.func 5408).busy = true ∧
    (s.func 5408).step = 1 ∧
    (l.fly.length < 8192 ∨ gs))) ∧
    (let s : State := { rank := 1000000, regs := [(13320, 1#32)], log := { reqs := [{ flags := 1 }] } }
    let r : Rec := { flags := 1 }
    let rest : List Rec := []
    s.snt.warmDue = false ∧ (let l := s.log
    let due := s.log.asmAt + 8 ≤ s.eng2
    let frz := bit (s.reg 0x3408) 0
    l.reqs = r :: rest ∧
    l.clearQ = none ∧
    r.kind ≠ 0x11 ∧
    due ∧
    s.domStill 0 = false ∧
    l.tally = [] ∧
    rest.length ≤ 32 ∧
    r.flags % 2 = 1 ∧
    r.tenant < 256 ∧
    frz = true ∧
    l.side.length < 256)) ∧
    (let s : State := { rank := 1000000, log := { clearQ := (some { kind := 17 }) } }
    let r : Rec := { kind := 17 }
    s.snt.warmDue = false ∧ (let l := s.log
    let due := s.log.asmAt + 8 ≤ s.eng2
    let frz := bit (s.reg 0x3408) 0
    l.clearQ = some r ∧
    due ∧
    s.domStill 0 = false ∧
    r.kind = 0x11 ∧
    frz = false ∧
    l.drain = false ∧
    l.degr = false ∧
    l.fly.length < 8192 ∧
    l.tally = [] ∧
    l.reqs.length ≤ 32)) ∧
    (let s : State := { rank := 1000000, log := { side := [{}], drain := true } }
    let r : Rec := {}
    let rest : List Rec := []
    s.snt.warmDue = false ∧ (let l := s.log
    let frz := bit (s.reg 0x3408) 0
    l.drain = true ∧
    frz = false ∧
    l.sideAt + 8 ≤ s.eng2 ∧
    s.domStill 0 = false ∧
    l.side = r :: rest ∧
    l.degr = false ∧
    l.fly.length < 8192)) ∧
    (let s : State := { log := { reqs := [{}] } }
    s.snt.warmDue = false ∧ (let l := s.log
    let frz := bit (s.reg 0x3408) 0
    (l.drain = false ∨ frz = true ∨ s.eng2 < l.sideAt + 8 ∨ s.domStill 0 = true))) := by
  refine ⟨?_, ?_, ?_, ?_, ?_, ?_, ?_, ?_, ?_, ?_⟩ <;> decide +kernel

set_option synthInstance.maxSize 2000 in
set_option synthInstance.maxHeartbeats 400000 in
theorem witness_RecordCursors :
    (let s : State := {}
    let win : Nat := 1
    let base : Word := 0#32
    s.snt.warmDue = false ∧
    win < 257 ∧ (let granted := win = 0 ∨ bit (s.tw 0x14 (win - 1) 10) 16 = true
    let cur := s.regW win 0x3480
    let ord := fun (q : Word) => (q - base).toNat
    let ops := ([(fun a => .oldestRec win a, fun _ => true, fun r q => ord r ≤ ord q),
          (fun a => .newestRec win a, fun _ => true, fun r q => ord q ≤ ord r), (fun a => .readRec win a, fun r => r = cur, fun _ _ => True),
          (fun a => .nextRec win a, fun r => ord cur < ord r, fun r q => ord r ≤ ord q)]
            : List ((BitVec 2 → Instr) × (Word → Bool) × (Word → Word → Bool)))
    let free := s.regReady = true ∧ s.domStill 0 = false ∧ (s.win win).recBusy = false ∧ (s.win win).recHeld = []
    ¬granted ∧
    free ∧
    ∃ p ∈ (ops), True)) ∧
    (let s : State := { log := { fly := [{}] } }
    let win : Nat := 0
    let base : Word := 0#32
    s.snt.warmDue = false ∧
    win < 257 ∧ (let granted := win = 0 ∨ bit (s.tw 0x14 (win - 1) 10) 16 = true
    let sees := fun (r : Rec) => win = 0 ∨ (r.flags % 2 = 1 ∧ r.tenant = win - 1)
    let cur := s.regW win 0x3480
    let ord := fun (q : Word) => (q - base).toNat
    let near := fun (l : List Rec) => ord cur < 2 ^ 31 ∧ ∀ q ∈ l, ord q.rseq < 2 ^ 31
    let ops := ([(fun a => .oldestRec win a, fun _ => true, fun r q => ord r ≤ ord q),
          (fun a => .newestRec win a, fun _ => true, fun r q => ord q ≤ ord r), (fun a => .readRec win a, fun r => r = cur, fun _ _ => True),
          (fun a => .nextRec win a, fun r => ord cur < ord r, fun r q => ord r ≤ ord q)]
            : List ((BitVec 2 → Instr) × (Word → Bool) × (Word → Word → Bool)))
    let free := s.regReady = true ∧ s.domStill 0 = false ∧ (s.win win).recBusy = false ∧ (s.win win).recHeld = []
    granted ∧
    free ∧
    ∃ p ∈ (ops), ∃ b ∈ (([(0, s.log.fly ++ s.log.area ++ s.log.side), (2, s.log.gasp.map Prod.snd)] : List (BitVec 2 × List Rec))), near b.2 ∧
    ∃ r ∈ (b.2), sees r ∧
    p.2.1 r.rseq ∧
    (∀ q ∈ b.2, sees q → p.2.1 q.rseq → p.2.2 r.rseq q.rseq) ∧
    (∀ q ∈ b.2, sees q → q.rseq = r.rseq → q = r))) ∧
    (let s : State := {}
    let win : Nat := 0
    let base : Word := 0#32
    s.snt.warmDue = false ∧
    win < 257 ∧ (let granted := win = 0 ∨ bit (s.tw 0x14 (win - 1) 10) 16 = true
    let sees := fun (r : Rec) => win = 0 ∨ (r.flags % 2 = 1 ∧ r.tenant = win - 1)
    let cur := s.regW win 0x3480
    let ord := fun (q : Word) => (q - base).toNat
    let near := fun (l : List Rec) => ord cur < 2 ^ 31 ∧ ∀ q ∈ l, ord q.rseq < 2 ^ 31
    let ops := ([(fun a => .oldestRec win a, fun _ => true, fun r q => ord r ≤ ord q),
          (fun a => .newestRec win a, fun _ => true, fun r q => ord q ≤ ord r), (fun a => .readRec win a, fun r => r = cur, fun _ _ => True),
          (fun a => .nextRec win a, fun r => ord cur < ord r, fun r q => ord r ≤ ord q)]
            : List ((BitVec 2 → Instr) × (Word → Bool) × (Word → Word → Bool)))
    let free := s.regReady = true ∧ s.domStill 0 = false ∧ (s.win win).recBusy = false ∧ (s.win win).recHeld = []
    granted ∧
    free ∧
    ∃ p ∈ (ops), ∃ b ∈ (([(0, s.log.fly ++ s.log.area ++ s.log.side), (2, s.log.gasp.map Prod.snd)] : List (BitVec 2 × List Rec))), near b.2 ∧
    (∀ q ∈ b.2, sees q → ¬p.2.1 q.rseq))) ∧
    (let s : State := {}
    let win : Nat := 0
    let base : Word := 0#32
    s.snt.warmDue = false ∧
    win < 257 ∧ (let granted := win = 0 ∨ bit (s.tw 0x14 (win - 1) 10) 16 = true
    let cur := s.regW win 0x3480
    let ord := fun (q : Word) => (q - base).toNat
    let ops := ([(fun a => .oldestRec win a, fun _ => true, fun r q => ord r ≤ ord q),
          (fun a => .newestRec win a, fun _ => true, fun r q => ord q ≤ ord r), (fun a => .readRec win a, fun r => r = cur, fun _ _ => True),
          (fun a => .nextRec win a, fun r => ord cur < ord r, fun r q => ord r ≤ ord q)]
            : List ((BitVec 2 → Instr) × (Word → Bool) × (Word → Word → Bool)))
    let free := s.regReady = true ∧ s.domStill 0 = false ∧ (s.win win).recBusy = false ∧ (s.win win).recHeld = []
    granted ∧
    free ∧
    ∃ p ∈ (ops), s.mir.role ≠ .standby)) ∧
    (let s : State := {}
    let win : Nat := 0
    let base : Word := 0#32
    s.snt.warmDue = false ∧
    win < 257 ∧ (let granted := win = 0 ∨ bit (s.tw 0x14 (win - 1) 10) 16 = true
    let cur := s.regW win 0x3480
    let ord := fun (q : Word) => (q - base).toNat
    let ops := ([(fun a => .oldestRec win a, fun _ => true, fun r q => ord r ≤ ord q),
          (fun a => .newestRec win a, fun _ => true, fun r q => ord q ≤ ord r), (fun a => .readRec win a, fun r => r = cur, fun _ _ => True),
          (fun a => .nextRec win a, fun r => ord cur < ord r, fun r q => ord r ≤ ord q)]
            : List ((BitVec 2 → Instr) × (Word → Bool) × (Word → Word → Bool)))
    let free := s.regReady = true ∧ s.domStill 0 = false ∧ (s.win win).recBusy = false ∧ (s.win win).recHeld = []
    granted ∧
    free ∧
    ∃ p ∈ (ops), s.region 5 = none)) ∧
    (let s : State := { ldr := { hdr := (some { regions := [(0, 0), (0, 0), (0, 0), (0, 0), (0, 0), (1048576, 4096)] }) } }
    let win : Nat := 0
    let base : Word := 0#32
    s.snt.warmDue = false ∧
    win < 257 ∧ (let granted := win = 0 ∨ bit (s.tw 0x14 (win - 1) 10) 16 = true
    let cur := s.regW win 0x3480
    let ord := fun (q : Word) => (q - base).toNat
    let ops := ([(fun a => .oldestRec win a, fun _ => true, fun r q => ord r ≤ ord q),
          (fun a => .newestRec win a, fun _ => true, fun r q => ord q ≤ ord r), (fun a => .readRec win a, fun r => r = cur, fun _ _ => True),
          (fun a => .nextRec win a, fun r => ord cur < ord r, fun r q => ord r ≤ ord q)]
            : List ((BitVec 2 → Instr) × (Word → Bool) × (Word → Word → Bool)))
    let free := s.regReady = true ∧ s.domStill 0 = false ∧ (s.win win).recBusy = false ∧ (s.win win).recHeld = []
    granted ∧
    free ∧
    ∃ p ∈ (ops), s.region 5 ≠ none)) ∧
    (let s : State := { ldr := { jobs := [{ req := 1, use := (.cursor 0 1 1), steps := [], got := [1#8, 1#8, 0#8, 0#8, 0#8, 0#8, 0#8, 0#8, 0#8, 0#8, 0#8, 0#8, 0#8, 0#8, 0#8, 0#8, 0#8, 0#8, 0#8, 0#8, 0#8, 0#8, 0#8, 0#8, 0#8, 0#8, 0#8, 0#8, 0#8, 0#8, 0#8, 0#8, 0#8, 0#8, 0#8, 0#8, 0#8, 0#8, 0#8, 0#8, 0#8, 0#8, 0#8, 0#8, 0#8, 0#8, 0#8, 0#8, 0#8, 0#8, 0#8, 0#8, 0#8, 0#8, 0#8, 0#8, 0#8, 0#8, 0#8, 0#8, 118#8, 2#8, 141#8, 167#8] }] } }
    let win : Nat := 0
    let base : Word := 0#32
    s.snt.warmDue = false ∧
    win < 257 ∧ (let sees := fun (r : Rec) => win = 0 ∨ (r.flags % 2 = 1 ∧ r.tenant = win - 1)
    let cur := s.regW win 0x3480
    let ord := fun (q : Word) => (q - base).toNat
    let near := fun (l : List Rec) => ord cur < 2 ^ 31 ∧ ∀ q ∈ l, ord q.rseq < 2 ^ 31
    let j : NvmJob := { req := 1, use := (.cursor 0 1 1), steps := [], got := [1#8, 1#8, 0#8, 0#8, 0#8, 0#8, 0#8, 0#8, 0#8, 0#8, 0#8, 0#8, 0#8, 0#8, 0#8, 0#8, 0#8, 0#8, 0#8, 0#8, 0#8, 0#8, 0#8, 0#8, 0#8, 0#8, 0#8, 0#8, 0#8, 0#8, 0#8, 0#8, 0#8, 0#8, 0#8, 0#8, 0#8, 0#8, 0#8, 0#8, 0#8, 0#8, 0#8, 0#8, 0#8, 0#8, 0#8, 0#8, 0#8, 0#8, 0#8, 0#8, 0#8, 0#8, 0#8, 0#8, 0#8, 0#8, 0#8, 0#8, 118#8, 2#8, 141#8, 167#8] }
    let op : Nat := 1
    s.ldr.jobs = [j] ∧
    j.use = .cursor win op 1 ∧
    j.steps = [] ∧
    (s.win win).recHeld = [] ∧
    op = 1 ∧
    near (gsRecs j.got) ∧
    ∃ r ∈ (gsRecs j.got), sees r ∧
    (∀ q ∈ gsRecs j.got, sees q → ord r.rseq ≤ ord q.rseq) ∧
    (∀ q ∈ gsRecs j.got, sees q → q.rseq = r.rseq → q = r))) ∧
    (let s : State := { ldr := { jobs := [{ req := 1, use := (.cursor 0 1 1), steps := [] }] } }
    let win : Nat := 0
    s.snt.warmDue = false ∧
    win < 257 ∧ (let j : NvmJob := { req := 1, use := (.cursor 0 1 1), steps := [] }
    let op : Nat := 1
    s.ldr.jobs = [j] ∧
    j.use = .cursor win op 1 ∧
    j.steps = [] ∧
    (s.win win).recHeld = [] ∧
    gsRecs j.got = [])) ∧
    (let s : State := {}
    let win : Nat := 0
    s.snt.warmDue = false ∧
    win < 257 ∧
    s.ldr.jobs = []) := by
  refine ⟨?_, ?_, ?_, ?_, ?_, ?_, ?_, ?_, ?_⟩ <;> decide +kernel

theorem witness_RecorderCommands_1 :
    (let s : State := {}
    s.snt.warmDue = false ∧
    PortActs s 0) ∧
    (let s : State := {}
    s.snt.warmDue = false ∧
    PortActs s 0 ∧ (let l := s.log
    let armed := ∃ t, l.armed = some t ∧ s.slowEdge < t + 32
    ¬armed)) ∧
    (let s : State := { log := { armed := (some 1000) } }
    s.snt.warmDue = false ∧
    PortActs s 0 ∧ (let l := s.log
    let armed := ∃ t, l.armed = some t ∧ s.slowEdge < t + 32
    let prot := ∃ k < 4, ∃ r, s.protRec k = some r ∧ nfld (leNat (r.take 2)) 5 1 = 1
    armed ∧
    ¬prot)) ∧
    (let s : State := { ldr := { hdr := (some { regions := [(65536, 0), (0, 0), (0, 0), (0, 0), (131072, 65536), (1048576, 262144), (2097152, 8192), (3145728, 524288), (4194304, 4096), (5242880, 4096)] }), nvm := [(5242880, 32#8), (5242881, 0#8), (5242882, 165#8), (5242883, 0#8), (5242884, 0#8), (5242885, 0#8), (5242886, 0#8), (5242887, 0#8), (5242888, 0#8), (5242889, 0#8), (5242890, 0#8), (5242891, 0#8), (5242892, 0#8), (5242893, 0#8), (5242894, 0#8), (5242895, 0#8), (5242896, 26#8), (5242897, 162#8), (5242898, 69#8), (5242899, 78#8), (5242900, 56#8), (5242901, 231#8), (5242902, 143#8), (5242903, 190#8), (5242904, 9#8), (5242905, 139#8), (5242906, 225#8), (5242907, 87#8), (5242908, 238#8), (5242909, 129#8), (5242910, 18#8), (5242911, 216#8), (5242912, 93#8), (5242913, 110#8), (5242914, 102#8), (5242915, 126#8), (5242916, 35#8), (5242917, 4#8), (5242918, 253#8), (5242919, 228#8), (5242920, 34#8), (5242921, 8#8), (5242922, 80#8), (5242923, 250#8), (5242924, 162#8), (5242925, 244#8), (5242926, 99#8), (5242927, 65#8), (5242928, 0#8), (5242929, 0#8), (5242930, 0#8), (5242931, 0#8), (5242932, 0#8), (5242933, 0#8), (5242934, 0#8), (5242935, 0#8), (5242936, 0#8), (5242937, 0#8), (5242938, 0#8), (5242939, 0#8), (5242940, 238#8), (5242941, 23#8), (5242942, 124#8), (5242943, 207#8)] }, log := { armed := (some 969) } }
    s.snt.warmDue = false ∧
    PortActs s 0 ∧ (let l := s.log
    let armed := ∃ t, l.armed = some t ∧ s.slowEdge < t + 32
    let locked := ∃ k < 4, ∃ r, s.protRec k = some r ∧ nfld (leNat (r.take 2)) 5 1 = 1 ∧ k ∉ s.ldr.unl
    armed ∧
    locked)) ∧
    (let s : State := { ldr := { hdr := (some { regions := [(65536, 0), (0, 0), (0, 0), (0, 0), (0, 0), (1048576, 0), (2097152, 0), (3145728, 524288), (4194304, 4096), (5242880, 4096)] }), nvm := protNvm, unl := [0] }, log := { armed := (some 1000) } }
    s.snt.warmDue = false ∧
    PortActs s 0 ∧ (let l := s.log
    let armed := ∃ t, l.armed = some t ∧ s.slowEdge < t + 32
    let prot := ∃ k < 4, ∃ r, s.protRec k = some r ∧ nfld (leNat (r.take 2)) 5 1 = 1
    let locked := ∃ k < 4, ∃ r, s.protRec k = some r ∧ nfld (leNat (r.take 2)) 5 1 = 1 ∧ k ∉ s.ldr.unl
    armed ∧
    prot ∧
    ¬locked ∧
    s.region 5 = none)) ∧
    (let s : State := { ldr := { hdr := (some { regions := [(65536, 0), (0, 0), (0, 0), (0, 0), (131072, 65536), (1048576, 262144), (2097152, 8192), (3145728, 524288), (4194304, 4096), (5242880, 4096)] }), nvm := protNvm, unl := [0] }, log := { clearing := true, armed := (some 1000) } }
    s.snt.warmDue = false ∧
    PortActs s 0 ∧ (let l := s.log
    let armed := ∃ t, l.armed = some t ∧ s.slowEdge < t + 32
    let prot := ∃ k < 4, ∃ r, s.protRec k = some r ∧ nfld (leNat (r.take 2)) 5 1 = 1
    let locked := ∃ k < 4, ∃ r, s.protRec k = some r ∧ nfld (leNat (r.take 2)) 5 1 = 1 ∧ k ∉ s.ldr.unl
    armed ∧
    prot ∧
    ¬locked ∧
    s.region 5 ≠ none ∧
    l.clearing = true)) ∧
    (let s : State := { ldr := { hdr := (some { regions := [(0, 0), (0, 0), (0, 0), (0, 0), (0, 0), (1048576, 262144), (0, 0), (0, 0), (0, 0), (5242880, 4096)] }), nvm := protNvm, unl := [0] }, log := { armed := (some 0) } }
    s.snt.warmDue = false ∧
    PortActs s 0 ∧ (let l := s.log
    let armed := ∃ t, l.armed = some t ∧ s.slowEdge < t + 32
    let prot := ∃ k < 4, ∃ r, s.protRec k = some r ∧ nfld (leNat (r.take 2)) 5 1 = 1
    let locked := ∃ k < 4, ∃ r, s.protRec k = some r ∧ nfld (leNat (r.take 2)) 5 1 = 1 ∧ k ∉ s.ldr.unl
    armed ∧
    prot ∧
    ¬locked ∧
    s.region 5 ≠ none ∧
    l.clearing = false)) ∧
    (let s : State := { log := { ckptOn := true } }
    s.snt.warmDue = false ∧
    PortActs s 0 ∧ (let l := s.log
    l.ckptOn = true)) := by
  refine ⟨?_, ?_, ?_, ?_, ?_, ?_, ?_, ?_⟩ <;> (unfold PortActs; decide +kernel)

theorem witness_RecorderCommands_2 :
    (let s : State := { ldr := { hdr := (some { regions := [(0, 0), (0, 0), (0, 0), (0, 0), (0, 0), (0, 0), (0, 0), (3145728, 524288)] }) } }
    s.snt.warmDue = false ∧
    PortActs s 0 ∧ (let l := s.log
    l.ckptOn = false ∧
    s.region 7 ≠ none)) ∧
    (let s : State := { regs := [(13312, 0#32)] }
    s.snt.warmDue = false ∧
    PortActs s 0 ∧ (let l := s.log
    bit (s.reg 0x3400) 2 = false ∧
    l.flushWant = false)) ∧
    (let s : State := { ldr := { phase := .opened, hdr := (some { regions := [(0, 0), (0, 0), (0, 0), (0, 0), (0, 0), (0, 0), (2097152, 4096)] }) }, log := { fly := [{}] } }
    s.snt.warmDue = false ∧
    PortActs s 0 ∧ (let l := s.log
    let all := l.fly ++ l.area ++ l.side
    let held := (s.flushAddrs.flatMap s.flushBlock).map Rec.rseq
    bit (s.reg 0x3400) 2 = true ∧
    s.flushRuns = false ∧
    s.ldr.phase = .opened ∧
    s.domStill 4 = false ∧ (let new := all.filter fun r => decide (r.rseq ∉ held)
    new ≠ [] ∧ (let a : Nat := 2097152
    s.flushAddrs.find? (fun a => s.nvmBlank a 4096) = some a)))) ∧
    (let s : State := { ldr := { phase := .opened }, log := { fly := [{}] } }
    s.snt.warmDue = false ∧
    PortActs s 0 ∧ (let l := s.log
    let all := l.fly ++ l.area ++ l.side
    let held := (s.flushAddrs.flatMap s.flushBlock).map Rec.rseq
    bit (s.reg 0x3400) 2 = true ∧
    s.flushRuns = false ∧
    s.ldr.phase = .opened ∧
    s.domStill 4 = false ∧ (let new := all.filter fun r => decide (r.rseq ∉ held)
    new ≠ [] ∧
    (∀ a ∈ s.flushAddrs, s.nvmBlank a 4096 = false)))) ∧
    (let s : State := {}
    s.snt.warmDue = false ∧
    PortActs s 0 ∧ (let l := s.log
    (bit (s.reg 0x3400) 1 = false ∨ s.region 5 = none ∨ l.gsStop = true ∨ l.clearing = true ∨ 1024 ≤ l.gsN ∨ 1024 ≤ l.gsAt))) ∧
    (let s : State := { ldr := { phase := .opened, hdr := (some { regions := [(131072, 65536), (1048576, 262144), (2097152, 8192), (3145728, 524288), (4194304, 4096), (5242880, 4096)] }) }, log := { fly := [{}] } }
    let base : Word := 0#32
    s.snt.warmDue = false ∧
    PortActs s 0 ∧ (let l := s.log
    let ord := fun (q : Word) => (q - base).toNat
    let all := l.fly ++ l.area ++ l.side
    bit (s.reg 0x3400) 1 = true ∧
    s.region 5 ≠ none ∧
    l.gsStop = false ∧
    l.clearing = false ∧
    l.gsN < 1024 ∧
    l.gsAt < 1024 ∧
    s.ldr.jobs = [] ∧
    s.ldr.phase = .opened ∧
    s.domStill 4 = false ∧
    ord l.gsNext < 2 ^ 31 ∧
    (∀ r ∈ all, ord r.rseq < 2 ^ 31) ∧
    ∃ r ∈ (all), ord l.gsNext ≤ ord r.rseq ∧
    (∀ q ∈ all, ord l.gsNext ≤ ord q.rseq → ord r.rseq ≤ ord q.rseq))) := by
  refine ⟨?_, ?_, ?_, ?_, ?_, ?_⟩ <;> (unfold PortActs; decide +kernel)

theorem witness_LastGaspAndCalendar_1 :
    (let s : State := { pwr := { dom := [(0, .off)] } }
    s.snt.warmDue = false ∧
    s.domOn 0 = false) ∧
    (let s : State := {}
    s.snt.warmDue = false ∧ (let l := s.log
    s.domOn 0 = true ∧
    s.domOn 4 = true ∧
    bit (s.reg 0x3408) 0 = false ∧
    l.drain = false ∧
    l.degr = false ∧
    l.fly.length < 8192 ∧
    s.ldr.erase = none ∧
    s.ldr.transOn = false ∧
    (∀ a ∈ s.flushAddrs, s.nvmBlank a 4096 = false))) ∧
    (let s : State := { ldr := { hdr := (some { regions := [(0, 0), (0, 0), (0, 0), (0, 0), (0, 0), (0, 0), (2097152, 4096)] }) } }
    s.snt.warmDue = false ∧ (let l := s.log
    s.domOn 0 = true ∧
    s.domOn 4 = true ∧
    bit (s.reg 0x3408) 0 = false ∧
    l.drain = false ∧
    l.degr = false ∧
    l.fly.length < 8192 ∧
    s.ldr.erase = none ∧
    s.ldr.transOn = false ∧ (let a : Nat := 2097152
    s.ldr.jobs = [] ∧
    s.flushAddrs.find? (fun a => s.nvmBlank a 4096) = some a))) ∧
    (let s : State := { pwr := { dom := [(4, .ret)] } }
    s.snt.warmDue = false ∧
    s.domOn 0 = true ∧
    s.domOn 4 = false ∧
    s.pwr.trans = none) ∧
    (let s : State := {}
    s.snt.warmDue = false ∧ (let l := s.log
    l.gaspQ = [])) ∧
    (let s : State := { log := { gaspQ := [(1000, {})] } }
    s.snt.warmDue = false ∧ (let l := s.log
    let t : Nat := 1000
    let r : Rec := {}
    let rest : List (Nat × Rec) := []
    l.gaspQ = (t, r) :: rest ∧
    s.slowEdge ≤ t)) ∧
    (let s : State := { slowEdge := 1000, log := { gaspQ := [(999, {})] } }
    s.snt.warmDue = false ∧ (let l := s.log
    let t : Nat := 999
    let r : Rec := {}
    let rest : List (Nat × Rec) := []
    l.gaspQ = (t, r) :: rest ∧
    t < s.slowEdge)) ∧
    (let s : State := {}
    s.snt.warmDue = false ∧ (let l := s.log
    s.slowEdge < l.secEdge + 32768)) := by
  refine ⟨?_, ?_, ?_, ?_, ?_, ?_, ?_, ?_⟩ <;> decide +kernel

theorem witness_LastGaspAndCalendar_2 :
    (let s : State := { slowEdge := 32768 }
    s.snt.warmDue = false ∧ (let l := s.log
    let period := max 1 (fld (s.reg 0x3418) 0 16)
    l.secEdge + 32768 ≤ s.slowEdge ∧
    (bit (s.reg 0x2830) 2 = false ∨ wd (l.sec + 1).toNat ≠ s.reg 0x2828) ∧
    (s.ldr.phase ≠ .opened ∨ s.domOn 0 = false ∨ l.ckptSec + 1 < period))) ∧
    (let s : State := { slowEdge := 33768, regs := [(10280, 1#32), (10288, 7#32)], pwr := { dom := [(0, .off)] } }
    s.snt.warmDue = false ∧ (let l := s.log
    l.secEdge + 32768 ≤ s.slowEdge ∧
    bit (s.reg 0x2830) 2 = true ∧
    wd (l.sec + 1).toNat = s.reg 0x2828 ∧
    fld (s.reg 0x2830) 5 3 = 0 ∧
    s.pwr.trans = none ∧
    s.domOn 0 = false ∧
    (∀ q, s.pwr.lastWake = some q → q.at_ ≠ s.slowEdge))) ∧
    (let s : State := { slowEdge := 32768, regs := [(13336, 1#32)], ldr := { phase := .opened, hdr := (some { regions := [(0, 0), (0, 0), (0, 0), (0, 0), (0, 0), (0, 0), (0, 0), (3145728, 524288)] }) } }
    s.snt.warmDue = false ∧ (let l := s.log
    let period := max 1 (fld (s.reg 0x3418) 0 16)
    l.secEdge + 32768 ≤ s.slowEdge ∧
    bit (s.reg 0x2830) 2 = false ∧
    s.ldr.phase = .opened ∧
    s.domOn 0 = true ∧
    l.ckptOn = false ∧
    s.region 7 ≠ none ∧
    period ≤ l.ckptSec + 1)) := by
  refine ⟨?_, ?_, ?_⟩ <;> decide +kernel

theorem witness_PortWrites :
    (let s : State := {}
    let r : Nat := 7168
    let data : W64 := 0#64
    s.snt.warmDue = false ∧
    s.mir.role ≠ .standby ∧
    s.unanswered = 0 ∧
    (s.win 0).busy = false ∧
    (s.win 0).recBusy = false ∧
    r < 0x4000 ∧
    r % 4 = 0 ∧ (let d := if r % 8 = 4 then hi32 data else lo32 data
    let old := s.reg r
    let row : RegRow := { lo := 7168, stride := 4, n := 1, kind := .cfg, reset := 0x00000000#32, rw := 0x00000007#32, win := false, lan := false, kept := false }
    regAt r = some row ∧
    row.lan = false ∧
    row.win = false ∧
    s.domStill (regDomain r) = false ∧
    row.kind = .cfg ∧
    (¬(0x1000 ≤ r ∧ r < 0x1400 ∧ r % 0x40 = 0)) ∧
    (¬(0x0400 ≤ r ∧ r < 0x0600 ∧ r % 8 = 0)) ∧
    r ∉ [0x0200, 0x0800, 0x2C00, 0x3408] ∧
    ∃ p ∈ (([(.registerWrite r .b32 data, (old &&& ~~~row.rw) ||| (d &&& row.rw)), (.setWrite r .b32 data, old ||| (d &&& row.rw)),
                (.clrWrite r .b32 data, old &&& ~~~(d &&& row.rw)), (.tglWrite r .b32 data, old ^^^ (d &&& row.rw))]
                  : List (Instr × Word))), True)) ∧
    (let s : State := {}
    let r : Nat := 1552
    s.snt.warmDue = false ∧
    s.mir.role ≠ .standby ∧
    s.unanswered = 0 ∧
    (s.win 0).busy = false ∧
    (s.win 0).recBusy = false ∧
    r < 0x4000 ∧
    r % 4 = 0 ∧ (let row : RegRow := { lo := 1552, stride := 4, n := 6, kind := .cnt, reset := 0x00000000#32, rw := 0xffffffff#32, win := false, lan := false, kept := false }
    regAt r = some row ∧
    row.lan = false ∧
    row.win = false ∧
    s.domStill (regDomain r) = false ∧
    row.kind = .cnt)) ∧
    (let s : State := {}
    let r : Nat := 12
    let data : W64 := 0#64
    s.snt.warmDue = false ∧
    s.mir.role ≠ .standby ∧
    s.unanswered = 0 ∧
    (s.win 0).busy = false ∧
    (s.win 0).recBusy = false ∧
    r < 0x4000 ∧
    r % 4 = 0 ∧
    regAt r = none ∧
    ∃ c ∈ (([.registerWrite r .b32 data, .setWrite r .b32 data, .clrWrite r .b32 data, .tglWrite r .b32 data, .postedWrite r .b32 data,
              .lowWordRead ⟨r, .b32⟩] : List Instr)), True) := by
  refine ⟨?_, ?_, ?_⟩ <;> decide +kernel

theorem witness_PortErrors :
    (let s : State := {}
    let r : Nat := 1
    s.snt.warmDue = false ∧
    s.unanswered = 0 ∧
    (s.win 0).busy = false ∧
    (s.win 0).recBusy = false ∧
    s.flush = [] ∧
    s.ldr.busy = false ∧
    r < 0x4000 ∧
    r % 4 ≠ 0) ∧
    (let s : State := {}
    let r : Nat := 9216
    s.snt.warmDue = false ∧
    s.unanswered = 0 ∧
    (s.win 0).busy = false ∧
    (s.win 0).recBusy = false ∧
    s.flush = [] ∧
    s.ldr.busy = false ∧
    r < 0x4000 ∧ (let row : RegRow := { lo := 9216, stride := 4, n := 1, kind := .cmd, reset := 0x00000000#32, rw := 0x00000000#32, win := false, lan := false, kept := false }
    r % 4 = 0 ∧
    regAt r = some row ∧
    (row.kind = .cmd ∨ row.kind = .lowWord ∨ row.kind = .highWord))) ∧
    (let s : State := { pwr := { dom := [(4, .off)] } }
    let r : Nat := 9224
    s.snt.warmDue = false ∧
    s.unanswered = 0 ∧
    (s.win 0).busy = false ∧
    (s.win 0).recBusy = false ∧
    s.flush = [] ∧
    s.ldr.busy = false ∧
    r < 0x4000 ∧ (let row : RegRow := { lo := 9224, stride := 4, n := 1, kind := .cfg, reset := 0x00000000#32, rw := 0x000001ff#32, win := false, lan := false, kept := false }
    r % 4 = 0 ∧
    regAt r = some row ∧
    s.domStill (regDomain r) = true)) ∧
    (let s : State := {}
    let r : Nat := 4132
    s.snt.warmDue = false ∧
    s.unanswered = 0 ∧
    (s.win 0).busy = false ∧
    (s.win 0).recBusy = false ∧
    s.flush = [] ∧
    s.ldr.busy = false ∧
    r < 0x4000 ∧ (let row : RegRow := { lo := 4132, stride := 64, n := 16, kind := .highWord, reset := 0x00000000#32, rw := 0x00000000#32, win := false, lan := false, kept := false }
    r % 4 = 0 ∧
    regAt r = some row ∧
    s.domStill (regDomain r) = false ∧
    row.kind = .highWord ∧
    ((s.win 0).wstage.map Prod.fst) ≠ some (r - 4))) ∧
    (let s : State := { wins := [(0, { posted := [{ off := 13336, img := .plain, data := 1384278411#32, mask := 4294967295#32 }, { off := 13336, img := .plain, data := 1384278411#32, mask := 4294967295#32 }, { off := 13336, img := .plain, data := 1384278411#32, mask := 4294967295#32 }, { off := 13336, img := .plain, data := 1384278411#32, mask := 4294967295#32 }] })] }
    let r : Nat := 10248
    s.snt.warmDue = false ∧
    s.unanswered = 0 ∧
    (s.win 0).busy = false ∧
    (s.win 0).recBusy = false ∧
    s.flush = [] ∧
    s.ldr.busy = false ∧
    r < 0x4000 ∧ (let row : RegRow := { lo := 10248, stride := 4, n := 1, kind := .cfg, reset := 0x00000000#32, rw := 0x000103ff#32, win := false, lan := true, kept := true }
    r % 4 = 0 ∧
    regAt r = some row ∧
    s.domStill (regDomain r) = false ∧
    row.lan = true ∧
    row.kind = .cfg ∧
    (s.win 0).posted.length = 4)) := by
  refine ⟨?_, ?_, ?_, ?_, ?_⟩ <;> decide +kernel

theorem witness_TenantWindows_1 :
    (let s : State := {}
    let v : Nat := 0
    let r : Nat := 0
    v < 256 ∧
    s.snt.warmDue = false ∧
    s.regReady = true ∧
    s.mir.role ≠ .standby ∧
    s.domStill 0 = false ∧
    (s.win (v + 1)).busy = false ∧
    (s.win (v + 1)).recBusy = false ∧
    (s.win (v + 1)).held = [] ∧
    (s.win (v + 1)).recHeld = [] ∧
    r < 0x4000 ∧
    r % 4 = 0 ∧ (let kind : Nat := 0
    kind < 16)) ∧
    (let s : State := {}
    let v : Nat := 0
    let r : Nat := 2304
    v < 256 ∧
    s.snt.warmDue = false ∧
    s.regReady = true ∧
    s.mir.role ≠ .standby ∧
    s.domStill 0 = false ∧
    (s.win (v + 1)).busy = false ∧
    (s.win (v + 1)).recBusy = false ∧
    (s.win (v + 1)).held = [] ∧
    (s.win (v + 1)).recHeld = [] ∧
    r < 0x4000 ∧
    r % 4 = 0 ∧
    (0x1C00 ≤ r ∧ r < 0x2800 ∨ 0x2C00 ≤ r ∧ r < 0x33C0 ∨ 0x0800 ≤ r ∧ r < 0x0C00 ∧ r ∉ [0x0804, 0x0814, 0x081C] ∨
            0x1000 ≤ r ∧ r < 0x1400 ∧ bit (s.ten v 10) ((r - 0x1000) / 64) = false)) ∧
    (let s : State := {}
    let v : Nat := 0
    let r : Nat := 0
    v < 256 ∧
    s.snt.warmDue = false ∧
    s.regReady = true ∧
    s.mir.role ≠ .standby ∧
    s.domStill 0 = false ∧
    (s.win (v + 1)).busy = false ∧
    (s.win (v + 1)).recBusy = false ∧
    (s.win (v + 1)).held = [] ∧
    (s.win (v + 1)).recHeld = [] ∧
    r < 0x4000 ∧
    r % 4 = 0 ∧
    (r < 0x0200 ∨ 0x3800 ≤ r ∨ r ∈ [0x0204, 0x0604, 0x0804, 0x0C00, 0x1404, 0x1408, 0x1804, 0x3500, 0x3504])) ∧
    (let s : State := {}
    let v : Nat := 0
    let r : Nat := 9216
    v < 256 ∧
    s.snt.warmDue = false ∧
    s.regReady = true ∧
    s.mir.role ≠ .standby ∧
    s.domStill 0 = false ∧
    (s.win (v + 1)).busy = false ∧
    (s.win (v + 1)).recBusy = false ∧
    (s.win (v + 1)).held = [] ∧
    (s.win (v + 1)).recHeld = [] ∧
    r < 0x4000 ∧
    r % 4 = 0 ∧ (let row : RegRow := { lo := 9216, stride := 4, n := 1, kind := .cmd, reset := 0x00000000#32, rw := 0x00000000#32, win := false, lan := false, kept := false }
    regAt r = some row ∧
    s.hidden v r = true)) ∧
    (let s : State := {}
    let v : Nat := 0
    let r : Nat := 516
    v < 256 ∧
    s.snt.warmDue = false ∧
    s.regReady = true ∧
    s.mir.role ≠ .standby ∧
    s.domStill 0 = false ∧
    (s.win (v + 1)).busy = false ∧
    (s.win (v + 1)).recBusy = false ∧
    (s.win (v + 1)).held = [] ∧
    (s.win (v + 1)).recHeld = [] ∧
    r < 0x4000 ∧
    r % 4 = 0 ∧ (let on := bit (s.ten v 0) 0 = true
    let row : RegRow := { lo := 516, stride := 4, n := 1, kind := .ro, reset := 0x00000000#32, rw := 0x00000000#32, win := false, lan := false, kept := false }
    regAt r = some row ∧
    (s.hidden v r = true ∨ (¬on ∧ row.win = false)))) ∧
    (let s : State := {}
    let v : Nat := 0
    let r : Nat := 0
    v < 256 ∧
    s.snt.warmDue = false ∧
    s.regReady = true ∧
    s.mir.role ≠ .standby ∧
    s.domStill 0 = false ∧
    (s.win (v + 1)).busy = false ∧
    (s.win (v + 1)).recBusy = false ∧
    (s.win (v + 1)).held = [] ∧
    (s.win (v + 1)).recHeld = [] ∧
    r < 0x4000 ∧
    r % 4 = 0 ∧ (let tid := fld (s.regW (v + 1) 0x3800) 24 8
    let idx := fld (s.regW (v + 1) 0x3800) 0 24
    s.tenEntry v tid idx = none)) ∧
    (let s : State := { tbl := [(10485760, 1#32)] }
    let v : Nat := 0
    let r : Nat := 0
    v < 256 ∧
    s.snt.warmDue = false ∧
    s.regReady = true ∧
    s.mir.role ≠ .standby ∧
    s.domStill 0 = false ∧
    (s.win (v + 1)).busy = false ∧
    (s.win (v + 1)).recBusy = false ∧
    (s.win (v + 1)).held = [] ∧
    (s.win (v + 1)).recHeld = [] ∧
    r < 0x4000 ∧
    r % 4 = 0 ∧ (let tid := fld (s.regW (v + 1) 0x3800) 24 8
    let idx := fld (s.regW (v + 1) 0x3800) 0 24
    let on := bit (s.ten v 0) 0 = true
    s.tenEntry v tid idx = none ∧
    on)) ∧
    (let s : State := {}
    let v : Nat := 0
    let r : Nat := 0
    v < 256 ∧
    s.snt.warmDue = false ∧
    s.regReady = true ∧
    s.mir.role ≠ .standby ∧
    s.domStill 0 = false ∧
    (s.win (v + 1)).busy = false ∧
    (s.win (v + 1)).recBusy = false ∧
    (s.win (v + 1)).held = [] ∧
    (s.win (v + 1)).recHeld = [] ∧
    r < 0x4000 ∧
    r % 4 = 0 ∧ (let on := bit (s.ten v 0) 0 = true
    ¬on)) := by
  refine ⟨?_, ?_, ?_, ?_, ?_, ?_, ?_, ?_⟩ <;> decide +kernel

theorem witness_TenantWindows_2 :
    (let s : State := { regs := [(30720, 234881024#32)], tbl := [(10485762, 65536#32), (11010048, 32768#32)] }
    let v : Nat := 0
    let r : Nat := 0
    v < 256 ∧
    s.snt.warmDue = false ∧
    s.regReady = true ∧
    s.mir.role ≠ .standby ∧
    s.domStill 0 = false ∧
    (s.win (v + 1)).busy = false ∧
    (s.win (v + 1)).recBusy = false ∧
    (s.win (v + 1)).held = [] ∧
    (s.win (v + 1)).recHeld = [] ∧
    r < 0x4000 ∧
    r % 4 = 0 ∧ (let tid := fld (s.regW (v + 1) 0x3800) 24 8
    let idx := fld (s.regW (v + 1) 0x3800) 0 24
    let e : Nat := 0
    s.tenEntry v tid idx = some e ∧
    s.domStill (tblDomain tid) = false)) ∧
    (let s : State := { regs := [(30720, 234881024#32)], tbl := [(10485760, 1#32), (10485762, 65536#32), (11010048, 32768#32)] }
    let v : Nat := 0
    let r : Nat := 0
    let m : BitVec 16 := 1#16
    v < 256 ∧
    s.snt.warmDue = false ∧
    s.regReady = true ∧
    s.mir.role ≠ .standby ∧
    s.domStill 0 = false ∧
    (s.win (v + 1)).busy = false ∧
    (s.win (v + 1)).recBusy = false ∧
    (s.win (v + 1)).held = [] ∧
    (s.win (v + 1)).recHeld = [] ∧
    r < 0x4000 ∧
    r % 4 = 0 ∧ (let tid := fld (s.regW (v + 1) 0x3800) 24 8
    let idx := fld (s.regW (v + 1) 0x3800) 0 24
    let word := fun (k : Nat) => mGet (fun _ => 0#32) (s.win (v + 1)).stage k
    let on := bit (s.ten v 0) 0 = true
    let offBand := tid = 0x01 ∧ m.getLsbD 2 = true ∧ s.inBand v (fld (word 2) 0 2) (fld (word 2) 8 8) = false
    let outside := ∃ k < 16, m.getLsbD k = true ∧
          ((tid = 0x01 ∧ k = 0 ∧ fld (word k) 0 3 = 0 ∧ s.destOf v (fld (word k) 4 10) = none) ∨
           (tid = 0x01 ∧ k = 0 ∧ 0 < fld (word k) 0 3 ∧ fld (word k) 0 3 < 4 ∧ s.groupOf v (fld (word k) 4 10) = none) ∨
           (tid = 0x0A ∧ k = 0 ∧ bit (s.ten v 10) (fld (word k) 1 4) = false) ∨
           (tid = 0x0D ∧ k = 0 ∧ 16 * fld (s.ten v 5) 16 13 < fld (word k) 0 16 + fld (word k) 16 13) ∨
           (tid = 0x0D ∧ k = 2 ∧ bit (word k) 9 = true ∧ fld (s.ten v 6) 16 10 ≤ fld (word k) 0 9) ∨
           (tid = 0x0E ∧ k = 0 ∧ fld (s.ten v 4) 16 13 ≤ fld (word k) 0 12) ∨
           (tid = 0x05 ∧ (k = 0 ∨ 5 ≤ k ∧ k ≤ 8) ∧ s.ownDest v idx = false) ∨
           (tid = 0x08 ∧ (k = 0 ∨ 3 ≤ k ∧ k ≤ 8) ∧ s.ownDest v idx = false) ∨
           (tid = 0x0C ∧ s.ownDest v (512 + idx) = false))
    let e : Nat := 0
    s.tenEntry v tid idx = some e ∧
    s.domStill (tblDomain tid) = false ∧
    on ∧
    outside ∧
    ¬offBand)) ∧
    (let s : State := { regs := [(30720, 16777216#32)], tbl := [(10485760, 1#32), (10485762, 65536#32), (11010048, 32768#32)] }
    let v : Nat := 0
    let r : Nat := 0
    let m : BitVec 16 := 4#16
    v < 256 ∧
    s.snt.warmDue = false ∧
    s.regReady = true ∧
    s.mir.role ≠ .standby ∧
    s.domStill 0 = false ∧
    (s.win (v + 1)).busy = false ∧
    (s.win (v + 1)).recBusy = false ∧
    (s.win (v + 1)).held = [] ∧
    (s.win (v + 1)).recHeld = [] ∧
    r < 0x4000 ∧
    r % 4 = 0 ∧ (let tid := fld (s.regW (v + 1) 0x3800) 24 8
    let idx := fld (s.regW (v + 1) 0x3800) 0 24
    let word := fun (k : Nat) => mGet (fun _ => 0#32) (s.win (v + 1)).stage k
    let on := bit (s.ten v 0) 0 = true
    let offBand := tid = 0x01 ∧ m.getLsbD 2 = true ∧ s.inBand v (fld (word 2) 0 2) (fld (word 2) 8 8) = false
    let e : Nat := 0
    s.tenEntry v tid idx = some e ∧
    s.domStill (tblDomain tid) = false ∧
    on ∧
    offBand)) ∧
    (let s : State := { regs := [(30720, 234881024#32)], tbl := [(10485760, 1#32), (10485762, 65536#32), (10485764, 65536#32), (11010048, 32768#32)] }
    let v : Nat := 0
    let r : Nat := 0
    let m : BitVec 16 := 1#16
    v < 256 ∧
    s.snt.warmDue = false ∧
    s.regReady = true ∧
    s.mir.role ≠ .standby ∧
    s.domStill 0 = false ∧
    (s.win (v + 1)).busy = false ∧
    (s.win (v + 1)).recBusy = false ∧
    (s.win (v + 1)).held = [] ∧
    (s.win (v + 1)).recHeld = [] ∧
    r < 0x4000 ∧
    r % 4 = 0 ∧ (let tid := fld (s.regW (v + 1) 0x3800) 24 8
    let idx := fld (s.regW (v + 1) 0x3800) 0 24
    let word := fun (k : Nat) => mGet (fun _ => 0#32) (s.win (v + 1)).stage k
    let on := bit (s.ten v 0) 0 = true
    let e : Nat := 0
    s.tenEntry v tid idx = some e ∧
    s.domStill (tblDomain tid) = false ∧
    on ∧
    s.edge.hc = [] ∧
    s.edge.hs = [] ∧
    s.edge.slots = [] ∧
    tid = 0x0E ∧
    m = 1 ∧
    fld (word 0) 0 12 < fld (s.ten v 4) 16 13 ∧
    fld (word 0) 0 12 + fld (s.ten v 4) 0 12 < 4096)) ∧
    (let s : State := { regs := [(30720, 218103808#32)], tbl := [(10485760, 1#32), (10485764, 4294901760#32)] }
    let v : Nat := 0
    let r : Nat := 0
    let m : BitVec 16 := 1#16
    v < 256 ∧
    s.snt.warmDue = false ∧
    s.regReady = true ∧
    s.mir.role ≠ .standby ∧
    s.domStill 0 = false ∧
    (s.win (v + 1)).busy = false ∧
    (s.win (v + 1)).recBusy = false ∧
    (s.win (v + 1)).held = [] ∧
    (s.win (v + 1)).recHeld = [] ∧
    r < 0x4000 ∧
    r % 4 = 0 ∧ (let tid := fld (s.regW (v + 1) 0x3800) 24 8
    let idx := fld (s.regW (v + 1) 0x3800) 0 24
    let word := fun (k : Nat) => mGet (fun _ => 0#32) (s.win (v + 1)).stage k
    let on := bit (s.ten v 0) 0 = true
    let e : Nat := 0
    s.tenEntry v tid idx = some e ∧
    s.domStill (tblDomain tid) = false ∧
    on ∧
    s.edge.hc = [] ∧
    s.edge.hs = [] ∧
    s.edge.slots = [] ∧
    tid = 0x0D ∧
    m = 1 ∧
    fld (word 0) 0 16 + fld (word 0) 16 13 ≤ 16 * fld (s.ten v 5) 16 13 ∧
    fld (word 0) 0 16 + 16 * fld (s.ten v 5) 0 12 < 65536)) ∧
    (let s : State := {}
    let v : Nat := 0
    let r : Nat := 0
    v < 256 ∧
    s.snt.warmDue = false ∧
    s.regReady = true ∧
    s.mir.role ≠ .standby ∧
    s.domStill 0 = false ∧
    (s.win (v + 1)).busy = false ∧
    (s.win (v + 1)).recBusy = false ∧
    (s.win (v + 1)).held = [] ∧
    (s.win (v + 1)).recHeld = [] ∧
    r < 0x4000 ∧
    r % 4 = 0) ∧
    (let s : State := {}
    let v : Nat := 0
    let r : Nat := 0
    let i : Nat := 0
    v < 256 ∧
    s.snt.warmDue = false ∧
    s.regReady = true ∧
    s.mir.role ≠ .standby ∧
    s.domStill 0 = false ∧
    (s.win (v + 1)).busy = false ∧
    (s.win (v + 1)).recBusy = false ∧
    (s.win (v + 1)).held = [] ∧
    (s.win (v + 1)).recHeld = [] ∧
    r < 0x4000 ∧
    r % 4 = 0 ∧
    i < 512) ∧
    (let s : State := {}
    let v : Nat := 0
    let r : Nat := 0
    let i : Nat := 0
    v < 256 ∧
    s.snt.warmDue = false ∧
    s.regReady = true ∧
    s.mir.role ≠ .standby ∧
    s.domStill 0 = false ∧
    (s.win (v + 1)).busy = false ∧
    (s.win (v + 1)).recBusy = false ∧
    (s.win (v + 1)).held = [] ∧
    (s.win (v + 1)).recHeld = [] ∧
    r < 0x4000 ∧
    r % 4 = 0 ∧
    fld (s.ten v 3) 0 12 + i < 4096) := by
  refine ⟨?_, ?_, ?_, ?_, ?_, ?_, ?_, ?_⟩ <;> decide +kernel

theorem witness_TenantWindows_3 :
    (let s : State := {}
    let v : Nat := 0
    let r : Nat := 0
    let i : Nat := 0
    v < 256 ∧
    s.snt.warmDue = false ∧
    s.regReady = true ∧
    s.mir.role ≠ .standby ∧
    s.domStill 0 = false ∧
    (s.win (v + 1)).busy = false ∧
    (s.win (v + 1)).recBusy = false ∧
    (s.win (v + 1)).held = [] ∧
    (s.win (v + 1)).recHeld = [] ∧
    r < 0x4000 ∧
    r % 4 = 0 ∧
    fld (s.ten v 4) 0 12 + i < 4096) ∧
    (let s : State := {}
    let v : Nat := 0
    let r : Nat := 0
    let i : Nat := 0
    v < 256 ∧
    s.snt.warmDue = false ∧
    s.regReady = true ∧
    s.mir.role ≠ .standby ∧
    s.domStill 0 = false ∧
    (s.win (v + 1)).busy = false ∧
    (s.win (v + 1)).recBusy = false ∧
    (s.win (v + 1)).held = [] ∧
    (s.win (v + 1)).recHeld = [] ∧
    r < 0x4000 ∧
    r % 4 = 0 ∧
    fld (s.ten v 5) 0 12 + i < 4096) ∧
    (let s : State := {}
    let v : Nat := 0
    let r : Nat := 0
    v < 256 ∧
    s.snt.warmDue = false ∧
    s.regReady = true ∧
    s.mir.role ≠ .standby ∧
    s.domStill 0 = false ∧
    (s.win (v + 1)).busy = false ∧
    (s.win (v + 1)).recBusy = false ∧
    (s.win (v + 1)).held = [] ∧
    (s.win (v + 1)).recHeld = [] ∧
    r < 0x4000 ∧
    r % 4 = 0 ∧
    ∃ t ∈ ([0x04, 0x07, 0x09, 0x0B, 0x11, 0x12, 0x13, 0x14, 0x15, 0x16, 0x17, 0x18, 0x1B]), True) := by
  refine ⟨?_, ?_, ?_⟩ <;> decide +kernel

theorem witness_WordPairsAndPostedWrites :
    (let s : State := {}
    let r : Nat := 4128
    let row : RegRow := { lo := 4128, stride := 64, n := 16, kind := .lowWord, reset := 0x00000000#32, rw := 0x00000000#32, win := false, lan := false, kept := false }
    s.snt.warmDue = false ∧
    s.mir.role ≠ .standby ∧
    s.unanswered = 0 ∧
    (s.win 0).busy = false ∧
    (s.win 0).recBusy = false ∧
    r < 0x4000 ∧
    regAt r = some row ∧
    r % 8 = 0 ∧
    row.kind = .lowWord ∧
    s.domStill (regDomain r) = false ∧
    ∃ p ∈ (([(.b32, 0), (.b64, s.winReg 0 (r + 4))] : List (Size × Word))), True) ∧
    (let s : State := { wins := [(0, { shadow := (some (4128, 77#32)) })] }
    let r : Nat := 4132
    let row : RegRow := { lo := 4132, stride := 64, n := 16, kind := .highWord, reset := 0x00000000#32, rw := 0x00000000#32, win := false, lan := false, kept := false }
    let h : Word := 77#32
    s.snt.warmDue = false ∧
    s.mir.role ≠ .standby ∧
    s.unanswered = 0 ∧
    (s.win 0).busy = false ∧
    (s.win 0).recBusy = false ∧
    r < 0x4000 ∧
    regAt r = some row ∧ (let w := s.win 0
    r % 8 = 4 ∧
    row.kind = .highWord ∧
    s.domStill (regDomain r) = false ∧
    w.shadow = some (r - 4, h))) ∧
    (let s : State := {}
    let r : Nat := 4128
    let row : RegRow := { lo := 4128, stride := 64, n := 16, kind := .lowWord, reset := 0x00000000#32, rw := 0x00000000#32, win := false, lan := false, kept := false }
    s.snt.warmDue = false ∧
    s.mir.role ≠ .standby ∧
    s.unanswered = 0 ∧
    (s.win 0).busy = false ∧
    (s.win 0).recBusy = false ∧
    r < 0x4000 ∧
    regAt r = some row) ∧
    (let s : State := { wins := [(0, { wstage := (some (13568, 77#32)) })] }
    let r : Nat := 4128
    let row : RegRow := { lo := 4128, stride := 64, n := 16, kind := .lowWord, reset := 0x00000000#32, rw := 0x00000000#32, win := false, lan := false, kept := false }
    let lo : Word := 77#32
    s.snt.warmDue = false ∧
    s.mir.role ≠ .standby ∧
    s.unanswered = 0 ∧
    (s.win 0).busy = false ∧
    (s.win 0).recBusy = false ∧
    r < 0x4000 ∧
    regAt r = some row ∧ (let w := s.win 0
    w.wstage = some (0x3500, lo) ∧
    w.posted.length < 4)) ∧
    (let s : State := {}
    let r : Nat := 10248
    let row : RegRow := { lo := 10248, stride := 4, n := 1, kind := .cfg, reset := 0x00000000#32, rw := 0x000103ff#32, win := false, lan := true, kept := true }
    s.snt.warmDue = false ∧
    s.mir.role ≠ .standby ∧
    s.unanswered = 0 ∧
    (s.win 0).busy = false ∧
    (s.win 0).recBusy = false ∧
    r < 0x4000 ∧
    regAt r = some row ∧ (let w := s.win 0
    row.lan = true ∧
    row.kind = .cfg ∧
    r % 4 = 0 ∧
    w.posted.length < 4)) ∧
    (let s : State := { wins := [(0, { posted := [{ off := 10248, img := .plain, data := 21#32, mask := 4294967295#32 }] })] }
    let r : Nat := 4128
    let row : RegRow := { lo := 4128, stride := 64, n := 16, kind := .lowWord, reset := 0x00000000#32, rw := 0x00000000#32, win := false, lan := false, kept := false }
    let data : W64 := 0#64
    s.snt.warmDue = false ∧
    s.mir.role ≠ .standby ∧
    s.unanswered = 0 ∧
    (s.win 0).busy = false ∧
    (s.win 0).recBusy = false ∧
    r < 0x4000 ∧
    regAt r = some row ∧ (let w := s.win 0
    let p : Posted := { off := 10248, img := .plain, data := 21#32, mask := 4294967295#32 }
    let rest : List Posted := []
    w.posted = p :: rest ∧
    (s.slowEdge ≤ w.postedAt ∨ w.appliedAt = some s.slowEdge))) ∧
    (let s : State := { slowEdge := 1, wins := [(0, { posted := [{ off := 10248, img := .plain, data := 21#32, mask := 4294967295#32 }] })] }
    let r : Nat := 10248
    let row : RegRow := { lo := 10248, stride := 4, n := 1, kind := .cfg, reset := 0x00000000#32, rw := 0x000103ff#32, win := false, lan := true, kept := true }
    let data : W64 := 0#64
    s.snt.warmDue = false ∧
    s.mir.role ≠ .standby ∧
    s.unanswered = 0 ∧
    (s.win 0).busy = false ∧
    (s.win 0).recBusy = false ∧
    r < 0x4000 ∧
    regAt r = some row ∧ (let w := s.win 0
    let p : Posted := { off := 10248, img := .plain, data := 21#32, mask := 4294967295#32 }
    let rest : List Posted := []
    w.posted = p :: rest ∧
    w.postedAt < s.slowEdge ∧
    w.appliedAt ≠ some s.slowEdge ∧
    (r = 0x2830 → s.domOn 0 = true) ∧
    p.off = r ∧
    r % 4 = 0 ∧
    row.lan = true ∧
    row.kind = .cfg ∧
    p.img = .plain ∧
    p.mask = 0xFFFFFFFF ∧
    p.hi = none)) ∧
    (let s : State := { slowEdge := 1, wins := [(0, { posted := [{ off := 13568, img := .plain, data := 21#32, mask := 4294967295#32, hi := (some 77#32) }] })] }
    let r : Nat := 4128
    let row : RegRow := { lo := 4128, stride := 64, n := 16, kind := .lowWord, reset := 0x00000000#32, rw := 0x00000000#32, win := false, lan := false, kept := false }
    let h : Word := 77#32
    let data : W64 := 0#64
    s.snt.warmDue = false ∧
    s.mir.role ≠ .standby ∧
    s.unanswered = 0 ∧
    (s.win 0).busy = false ∧
    (s.win 0).recBusy = false ∧
    r < 0x4000 ∧
    regAt r = some row ∧ (let w := s.win 0
    let p : Posted := { off := 13568, img := .plain, data := 21#32, mask := 4294967295#32, hi := (some 77#32) }
    let rest : List Posted := []
    w.posted = p :: rest ∧
    w.postedAt < s.slowEdge ∧
    w.appliedAt ≠ some s.slowEdge ∧
    p.hi = some h)) ∧
    (let s : State := {}
    let r : Nat := 4128
    let row : RegRow := { lo := 4128, stride := 64, n := 16, kind := .lowWord, reset := 0x00000000#32, rw := 0x00000000#32, win := false, lan := false, kept := false }
    s.snt.warmDue = false ∧
    s.mir.role ≠ .standby ∧
    s.unanswered = 0 ∧
    (s.win 0).busy = false ∧
    (s.win 0).recBusy = false ∧
    r < 0x4000 ∧
    regAt r = some row ∧ (let w := s.win 0
    w.posted = [])) ∧
    (let s : State := {}
    let r : Nat := 4128
    let row : RegRow := { lo := 4128, stride := 64, n := 16, kind := .lowWord, reset := 0x00000000#32, rw := 0x00000000#32, win := false, lan := false, kept := false }
    s.snt.warmDue = false ∧
    s.mir.role ≠ .standby ∧
    s.unanswered = 0 ∧
    (s.win 0).busy = false ∧
    (s.win 0).recBusy = false ∧
    r < 0x4000 ∧
    regAt r = some row ∧ (let w := s.win 0
    w.posted.length < 4)) := by
  refine ⟨?_, ?_, ?_, ?_, ?_, ?_, ?_, ?_, ?_, ?_⟩ <;> decide +kernel

theorem witness_TablePort :
    (let s : State := {}
    s.snt.warmDue = false ∧
    (s.win 0).busy = false ∧
    (s.win 0).held = [] ∧
    PortActs s 0) ∧
    (let s : State := {}
    let w : Nat := 0
    s.snt.warmDue = false ∧
    (s.win 0).busy = false ∧
    (s.win 0).held = [] ∧
    PortActs s 0 ∧
    w < 16) ∧
    (let s : State := { regs := [(14336, 50331648#32)] }
    s.snt.warmDue = false ∧
    (s.win 0).busy = false ∧
    (s.win 0).held = [] ∧
    PortActs s 0 ∧ (let tid := fld (s.reg 0x3800) 24 8
    let idx := fld (s.reg 0x3800) 0 24
    s.domStill (tblDomain tid) = false ∧
    tblHas tid idx = true)) ∧
    (let s : State := {}
    s.snt.warmDue = false ∧
    (s.win 0).busy = false ∧
    (s.win 0).held = [] ∧
    PortActs s 0 ∧ (let tid := fld (s.reg 0x3800) 24 8
    let idx := fld (s.reg 0x3800) 0 24
    s.domStill (tblDomain tid) = false ∧
    tblHas tid idx = false)) ∧
    (let s : State := { regs := [(14336, 50331648#32)] }
    s.snt.warmDue = false ∧
    (s.win 0).busy = false ∧
    (s.win 0).held = [] ∧
    PortActs s 0 ∧ (let tid := fld (s.reg 0x3800) 24 8
    let idx := fld (s.reg 0x3800) 0 24
    s.domStill (tblDomain tid) = false ∧
    tblHas tid idx = true ∧
    tid ∉ [0x01, 0x02, 0x0A, 0x0B] ∧
    s.edge.tcnt = [] ∧
    s.edge.hc = [] ∧
    s.edge.hs = [] ∧
    s.edge.slots = [])) ∧
    (let s : State := { regs := [(14336, 50331648#32)] }
    let m : BitVec 16 := 1#16
    s.snt.warmDue = false ∧
    (s.win 0).busy = false ∧
    (s.win 0).held = [] ∧
    PortActs s 0 ∧ (let tid := fld (s.reg 0x3800) 24 8
    let idx := fld (s.reg 0x3800) 0 24
    s.domStill (tblDomain tid) = false ∧ (let k : Nat := 0
    tblHas tid idx = true ∧
    tid ∉ [0x01, 0x02, 0x0A, 0x0B] ∧
    s.edge.hs = [] ∧
    s.edge.slots = [] ∧
    k < 16 ∧
    m.getLsbD k = true))) ∧
    (let s : State := { wins := [(1, { busy := true })] }
    s.snt.warmDue = false ∧
    (s.win 0).busy = false ∧
    (s.win 0).held = [] ∧
    PortActs s 0 ∧ (let v : Nat := 1
    (s.win v).busy = true ∧
    (s.win v).held = [] ∧
    s.domStill (tblDomain (fld (s.regW v 0x3800) 24 8)) = false)) ∧
    (let s : State := { wins := [(1, { busy := true })] }
    s.snt.warmDue = false ∧
    (s.win 0).busy = false ∧
    (s.win 0).held = [] ∧
    PortActs s 0 ∧ (let v : Nat := 1
    0 < v ∧
    v < 257 ∧
    (s.win v).busy = true)) := by
  refine ⟨?_, ?_, ?_, ?_, ?_, ?_, ?_, ?_⟩ <;> (unfold PortActs; decide +kernel)

theorem witness_UnitWrites_1 :
    (let s : State := {}
    let d : Word := 0#32
    s.snt.warmDue = false ∧
    PortActs s 0 ∧
    s.domStill 1 = false ∧ (let mixed := fun (r : Nat) (rw : Word) => (s.reg r &&& ~~~rw) ||| (d &&& rw)
    let v := mixed 0x0200 0x000FFFFF
    fld v 0 20 ≠ fld (s.reg 0x0200) 0 20)) ∧
    (let s : State := { regs := [(512, 0#32)] }
    let d : Word := 0#32
    s.snt.warmDue = false ∧
    PortActs s 0 ∧
    s.domStill 1 = false ∧ (let mixed := fun (r : Nat) (rw : Word) => (s.reg r &&& ~~~rw) ||| (d &&& rw)
    let v := mixed 0x0200 0x000FFFFF
    fld v 0 20 = fld (s.reg 0x0200) 0 20)) ∧
    (let s : State := {}
    let n : Nat := 0
    s.snt.warmDue = false ∧
    PortActs s 0 ∧
    s.domStill 1 = false ∧
    n < 64) ∧
    (let s : State := {}
    let n : Nat := 0
    s.snt.warmDue = false ∧
    PortActs s 0 ∧
    s.domStill 1 = false ∧
    n < 64 ∧
    ((s.src n).place ≠ .direct ∨ (s.src n).st ≠ .pending ∨ (s.src n).told ≠ none)) ∧
    (let s : State := { srcs := [(0, { st := .pending, place := .direct })] }
    let n : Nat := 0
    let d : Word := 0#32
    s.snt.warmDue = false ∧
    PortActs s 0 ∧
    s.domStill 1 = false ∧ (let mixed := fun (r : Nat) (rw : Word) => (s.reg r &&& ~~~rw) ||| (d &&& rw)
    let a := 0x0400 + 8 * n
    n < 64 ∧
    (s.src n).place = .direct ∧
    (s.src n).st = .pending ∧
    (s.src n).told = none ∧
    (bit (s.reg a) 0 = false ∨ bit (mixed a 0x01FFFF01) 0 = true))) ∧
    (let s : State := { regs := [(1024, 1#32)], srcs := [(0, { st := .pending, place := .direct })] }
    let n : Nat := 0
    let d : Word := 0#32
    s.snt.warmDue = false ∧
    PortActs s 0 ∧
    s.domStill 1 = false ∧ (let mixed := fun (r : Nat) (rw : Word) => (s.reg r &&& ~~~rw) ||| (d &&& rw)
    let a := 0x0400 + 8 * n
    n < 64 ∧
    bit (s.reg a) 0 = true ∧
    (s.src n).place = .direct ∧
    (s.src n).st = .pending ∧
    (s.src n).told = none ∧
    bit (mixed a 0x01FFFF01) 0 = false)) ∧
    (let s : State := {}
    let n : Nat := 0
    let d : Word := 4294967295#32
    s.snt.warmDue = false ∧
    PortActs s 0 ∧
    s.domStill 1 = false ∧ (let mixed := fun (r : Nat) (rw : Word) => (s.reg r &&& ~~~rw) ||| (d &&& rw)
    let p := 0x1000 + 0x40 * n
    let pv := mixed p 0x0FFFFF7F
    n < 16 ∧
    fld pv 1 2 = 3)) ∧
    (let s : State := {}
    let n : Nat := 0
    let d : Word := 0#32
    s.snt.warmDue = false ∧
    PortActs s 0 ∧
    s.domStill 1 = false ∧ (let mixed := fun (r : Nat) (rw : Word) => (s.reg r &&& ~~~rw) ||| (d &&& rw)
    let p := 0x1000 + 0x40 * n
    let pv := mixed p 0x0FFFFF7F
    n < 16 ∧
    fld pv 1 2 ≠ 3 ∧
    (fld pv 0 3 = fld (s.reg p) 0 3 ∨ s.ldr.phase ≠ .opened))) := by
  refine ⟨?_, ?_, ?_, ?_, ?_, ?_, ?_, ?_⟩ <;> (unfold PortActs; decide +kernel)

theorem witness_UnitWrites_2 :
    (let s : State := { clusters := [(0, { queue := [(.plain 0 0x00000004#32 0x00000005#32)] })], ldr := { phase := .opened } }
    let n : Nat := 0
    let d : Word := 4#32
    s.snt.warmDue = false ∧
    PortActs s 0 ∧
    s.domStill 1 = false ∧ (let mixed := fun (r : Nat) (rw : Word) => (s.reg r &&& ~~~rw) ||| (d &&& rw)
    let p := 0x1000 + 0x40 * n
    let pv := mixed p 0x0FFFFF7F
    n < 16 ∧
    fld pv 1 2 ≠ 3 ∧
    fld pv 0 3 ≠ fld (s.reg p) 0 3 ∧
    s.ldr.phase = .opened ∧
    s.occs = [] ∧
    s.ctxs = [] ∧
    bit pv 0 = false)) ∧
    (let s : State := { ldr := { phase := .opened } }
    let n : Nat := 0
    let d : Word := 5#32
    s.snt.warmDue = false ∧
    PortActs s 0 ∧
    s.domStill 1 = false ∧ (let mixed := fun (r : Nat) (rw : Word) => (s.reg r &&& ~~~rw) ||| (d &&& rw)
    let p := 0x1000 + 0x40 * n
    let pv := mixed p 0x0FFFFF7F
    n < 16 ∧
    fld pv 1 2 ≠ 3 ∧
    fld pv 0 3 ≠ fld (s.reg p) 0 3 ∧
    s.ldr.phase = .opened ∧
    s.occs = [] ∧
    s.ctxs = [] ∧
    bit pv 0 = true ∧
    fld pv 1 2 = 2)) ∧
    (let s : State := { ldr := { phase := .opened } }
    let n : Nat := 0
    let d : Word := 1#32
    s.snt.warmDue = false ∧
    PortActs s 0 ∧
    s.domStill 1 = false ∧ (let mixed := fun (r : Nat) (rw : Word) => (s.reg r &&& ~~~rw) ||| (d &&& rw)
    let p := 0x1000 + 0x40 * n
    let pv := mixed p 0x0FFFFF7F
    n < 16 ∧
    fld pv 1 2 ≠ 3 ∧
    fld pv 0 3 ≠ fld (s.reg p) 0 3 ∧
    s.ldr.phase = .opened ∧
    s.occs = [] ∧
    s.ctxs = [] ∧
    bit pv 0 = true ∧
    fld pv 1 2 < 2)) ∧
    (let s : State := {}
    s.snt.warmDue = false ∧
    PortActs s 0 ∧
    s.domStill 1 = false) ∧
    (let s : State := {}
    let k : Nat := 0
    s.snt.warmDue = false ∧
    PortActs s 0 ∧
    s.domStill 1 = false ∧
    k < 4096 ∧
    bit (s.ccfg k) 0 = false) ∧
    (let s : State := { tbl := [(5242880, 33#32)] }
    let k : Nat := 0
    s.snt.warmDue = false ∧
    PortActs s 0 ∧
    s.domStill 1 = false ∧
    k < 4096 ∧
    bit (s.ccfg k) 0 = true) ∧
    (let s : State := {}
    let k : Nat := 0
    s.snt.warmDue = false ∧
    PortActs s 0 ∧
    s.domStill 1 = false ∧
    k < 4096 ∧
    s.squashables k = []) ∧
    (let s : State := { tbl := [(5242880, 256#32)], occs := [(50, { id := 50, ctx := 0, tgt := 0#64, dir := .fwd, either := false, raised := 0, late := false })] }
    let k : Nat := 0
    s.snt.warmDue = false ∧
    PortActs s 0 ∧
    s.domStill 1 = false ∧
    k < 4096 ∧ (let o : Nat := 50
    let x : Occ := { id := 50, ctx := 0, tgt := 0#64, dir := .fwd, either := false, raised := 0, late := false }
    s.occs = [(o, x)] ∧
    x.id = o ∧
    x.ctx = k ∧
    x.st = .launched ∧
    x.places = [] ∧
    (s.src (0x4800 + k)).st ≠ .completing ∧
    bit (s.ccfg k) 8 = true ∧
    bit (s.reg 0x1400) 0 = false)) := by
  refine ⟨?_, ?_, ?_, ?_, ?_, ?_, ?_, ?_⟩ <;> (unfold PortActs; decide +kernel)

theorem witness_RowsTakeEffect_1 :
    (let s : State := { rank := 65536 }
    s.snt.warmDue = false ∧
    s.domStill 0 = false ∧
    s.decayAt + 2 ^ s.dexp ≤ s.rank) ∧
    (let s : State := { dsts := [(1, { mark := true })] }
    s.snt.warmDue = false ∧ (let b : Nat := 0
    let d : Nat := 1
    d < 576 ∧
    bankOf d = b ∧
    s.domStill 0 = false ∧
    s.nextSweep b = some d ∧
    (s.bank b).sweptAt + (s.dst d).shelf.length ≤ s.rank)) ∧
    (let s : State := { rank := 64, tbl := [(4202496, 256#32)], dsts := [(512, { timer := (some 0) })] }
    s.snt.warmDue = false ∧ (let d : Nat := 512
    let n : Nat := 0
    (s.dst d).timer = some n ∧
    fld (s.tcfg d) 8 12 ≠ 0 ∧
    n + 64 * fld (s.tcfg d) 8 12 ≤ s.rank ∧
    512 ≤ d ∧
    d < 576)) ∧
    (let s : State := { rank := 1000000, dsts := [(1, { timer := (some 0) })] }
    s.snt.warmDue = false ∧ (let d : Nat := 1
    let n : Nat := 0
    (s.dst d).timer = some n ∧
    fld (s.tcfg d) 8 12 ≠ 0 ∧
    n + 64 * fld (s.tcfg d) 8 12 ≤ s.rank ∧
    d < 512 ∧
    (s.dst d).c0 = none ∧
    (s.dst d).offer = none)) ∧
    (let s : State := {}
    s.snt.warmDue = false ∧ (let k : Nat := 0
    k < 512)) ∧
    (let s : State := {}
    s.snt.warmDue = false ∧ (let l := s.ldr
    PortActs s 4 ∧
    l.busy = false ∧
    l.held = [] ∧
    s.pwr.trans = none)) ∧
    (let s : State := { ldr := { phase := .opened, hdr := (some { regions := [(65536, 65536)] }) } }
    s.snt.warmDue = false ∧ (let l := s.ldr
    PortActs s 4 ∧
    l.busy = false ∧
    l.held = [] ∧ (let p : BitVec 2 := 0#2
    l.phase = .opened ∧
    s.draining = false ∧
    (s.region p.toNat).isSome = true))) ∧
    (let s : State := { regs := [(9224, 4#32)] }
    s.snt.warmDue = false ∧ (let l := s.ldr
    PortActs s 4 ∧
    l.busy = false ∧
    l.held = [] ∧
    s.badRange = false)) := by
  refine ⟨?_, ?_, ?_, ?_, ?_, ?_, ?_, ?_⟩
  · decide +kernel
  · decide +kernel
  · decide +kernel
  · decide +kernel
  · decide +kernel
  · unfold PortActs; decide +kernel
  · unfold PortActs; decide +kernel
  · unfold PortActs; decide +kernel

theorem witness_RowsTakeEffect_2 :
    (let s : State := { ldr := { spend := true } }
    s.snt.warmDue = false ∧ (let l := s.ldr
    PortActs s 4 ∧
    l.busy = false ∧
    l.held = [] ∧
    l.spend = true)) ∧
    (let s : State := {}
    s.snt.warmDue = false ∧ (let l := s.ldr
    PortActs s 4 ∧
    l.busy = false ∧
    l.held = [])) ∧
    (let s : State := { ldr := { phase := .failed } }
    s.snt.warmDue = false ∧ (let l := s.ldr
    PortActs s 4 ∧
    l.busy = false ∧
    l.held = [] ∧
    l.phase = .failed)) ∧
    (let s : State := { ldr := { spend := true } }
    s.snt.warmDue = false ∧
    s.swapReady = true) ∧
    (let s : State := { rank := 65536, regs := [(9244, 65536#32)], ldr := { spend := true } }
    s.snt.warmDue = false ∧ (let l := s.ldr
    l.spend = true ∧
    fld (s.reg 0x241C) 16 12 ≠ 0 ∧
    l.spendAt + 65536 * fld (s.reg 0x241C) 16 12 ≤ s.rank)) ∧
    (let s : State := {}
    s.snt.warmDue = false ∧
    s.startDue = true ∧
    s.prepare.ldr.hdr = none) ∧
    (let s : State := { rank := 6400000, ldr := { jobs := [{ req := 0, use := .nvmRead, steps := [(.read 36864 4)] }], erase := (some { addr := 12288, runFrom := 0, susp := false }) } }
    s.snt.warmDue = false ∧ (let l := s.ldr
    let e : Erase := { addr := 12288, runFrom := 0, susp := false }
    l.erase = some e ∧
    e.susp = false ∧
    e.runFrom + 3200000 ≤ s.eng2 ∧
    s.readWaits = true)) ∧
    (let s : State := { ldr := { erase := (some { addr := 12288, runFrom := 500000, susp := true }) } }
    s.snt.warmDue = false ∧ (let l := s.ldr
    let e : Erase := { addr := 12288, runFrom := 500000, susp := true }
    l.erase = some e ∧
    e.susp = true ∧
    l.transOn = false ∧
    s.readWaits = false)) := by
  refine ⟨?_, ?_, ?_, ?_, ?_, ?_, ?_, ?_⟩
  · unfold PortActs; decide +kernel
  · unfold PortActs; decide +kernel
  · unfold PortActs; decide +kernel
  · decide +kernel
  · decide +kernel
  · decide +kernel
  · decide +kernel
  · decide +kernel

theorem witness_RowsTakeEffect_3 :
    (let s : State := { ldr := { erase := (some { addr := 12288, runFrom := 0, susp := false }) } }
    s.snt.warmDue = false ∧ (let l := s.ldr
    let e : Erase := { addr := 12288, runFrom := 0, susp := false }
    l.erase = some e ∧
    e.susp = false ∧
    s.txJob = none ∧
    s.erasingJob = none)) ∧
    (let s : State := { mir := { fence := true } }
    s.snt.warmDue = false ∧ (let m := s.mir
    m.fence = true ∧
    m.fack = false)) ∧
    (let s : State := { rank := 1000000, mir := { role := .takeover } }
    s.snt.warmDue = false ∧
    s.fenceLate = true) ∧
    (let s : State := { mir := { role := .primary, link := true } }
    s.snt.warmDue = false ∧ (let m := s.mir
    m.role = .primary ∧
    bit (s.reg 0x2C00) 7 = false ∧
    s.linked = true)) ∧
    (let s : State := { mir := { role := .primary } }
    s.snt.warmDue = false ∧ (let m := s.mir
    m.role = .primary ∧
    bit (s.reg 0x2C00) 7 = false ∧
    s.regReady = true ∧
    s.domStill 3 = false)) ∧
    (let s : State := { mir := { role := .takeover, fto := true } }
    s.snt.warmDue = false ∧ (let m := s.mir
    s.regReady = true ∧
    s.domStill 3 = false ∧
    m.role = .takeover ∧
    m.fto = true)) ∧
    (let s : State := { slowEdge := 1000, pwr := { trans := (some { ph := .asking, tgt := [], ropen := false, raise := [], acked := [], ask := [0], asked := 997, stopped := [], await := [], at_ := 0, next := 0, wake := false, pm := false, cold := false }) } }
    s.snt.warmDue = false ∧ (let now := s.slowEdge
    let t : Trans := { ph := .asking, tgt := [], ropen := false, raise := [], acked := [], ask := [0], asked := 997, stopped := [], await := [], at_ := 0, next := 0, wake := false, pm := false, cold := false }
    let d : Nat := 0
    let rest : List Nat := []
    s.pwr.trans = some t ∧
    t.ask = d :: rest ∧
    t.ph = .asking ∧
    t.asked + 2 ≤ now ∧
    now ≤ t.asked + s.answerLimit ∧
    s.working d = false ∧
    s.refusal d = none)) ∧
    (let s : State := { slowEdge := 40, pwr := { trans := (some { ph := .asking, tgt := [], ropen := false, raise := [], acked := [], ask := [4], asked := 0, stopped := [], await := [], at_ := 0, next := 0, wake := false, pm := false, cold := false }) } }
    s.snt.warmDue = false ∧ (let now := s.slowEdge
    let t : Trans := { ph := .asking, tgt := [], ropen := false, raise := [], acked := [], ask := [4], asked := 0, stopped := [], await := [], at_ := 0, next := 0, wake := false, pm := false, cold := false }
    let d : Nat := 4
    let rest : List Nat := []
    s.pwr.trans = some t ∧
    t.ask = d :: rest ∧
    t.ph = .asking ∧
    t.asked + s.answerLimit ≤ now)) := by
  refine ⟨?_, ?_, ?_, ?_, ?_, ?_, ?_, ?_⟩ <;> decide +kernel

theorem witness_RowsTakeEffect_4 :
    (let s : State := { slowEdge := 1000, pwr := { trans := (some { ph := .undoing, tgt := [], ropen := false, raise := [], acked := [], ask := [], asked := 600, stopped := [2], await := [], at_ := 0, next := 600, wake := true, pm := false, cold := true }) } }
    s.snt.warmDue = false ∧ (let now := s.slowEdge
    let t : Trans := { ph := .undoing, tgt := [], ropen := false, raise := [], acked := [], ask := [], asked := 600, stopped := [2], await := [], at_ := 0, next := 600, wake := true, pm := false, cold := true }
    let d : Nat := 2
    let rest : List Nat := []
    s.pwr.trans = some t ∧
    t.stopped = d :: rest ∧
    t.ph = .undoing ∧
    t.next ≤ now ∧
    2 ≤ d)) ∧
    (let s : State := { slowEdge := 1000, pwr := { trans := (some { ph := .raising, tgt := [], ropen := false, raise := [2, 0], acked := [2], ask := [], asked := 600, stopped := [], await := [], at_ := 0, next := 605, wake := false, pm := false, cold := false }) } }
    s.snt.warmDue = false ∧ (let now := s.slowEdge
    let t : Trans := { ph := .raising, tgt := [], ropen := false, raise := [2, 0], acked := [2], ask := [], asked := 600, stopped := [], await := [], at_ := 0, next := 605, wake := false, pm := false, cold := false }
    let d : Nat := 2
    let rest : List Nat := [0]
    s.pwr.trans = some t ∧
    d < 40 ∧
    2 ≤ d ∧
    t.ph = .raising ∧
    t.raise = d :: rest ∧
    rest ≠ [] ∧
    t.acked = [d] ∧
    t.next ≤ now ∧
    s.log.pfWant = 0)) ∧
    (let s : State := {}
    s.snt.warmDue = false ∧ (let d : Nat := 0
    d < 40)) ∧
    (let s : State := {}
    s.snt.warmDue = false) ∧
    (let s : State := {}
    s.snt.warmDue = false) ∧
    (let s : State := {}
    s.snt.warmDue = false ∧
    s.pwr.trans = none ∧
    s.pwr.lateWake = none ∧
    s.log.pfWant = 0 ∧
    s.pwr.pmMid = none) ∧
    (let s : State := {}
    s.snt.warmDue = false ∧ (let m := s.mir
    s.pwr.trans = none ∧
    s.pwr.lateWake = none ∧
    s.log.pfWant = 0 ∧
    s.regReady = true ∧
    m.role ≠ .standby ∧
    (s.win 0).posted = [])) ∧
    (let s : State := {}
    s.snt.warmDue = false ∧ (let m := s.mir
    s.pwr.trans = none ∧
    s.pwr.lateWake = none ∧
    s.log.pfWant = 0 ∧
    s.regReady = true ∧
    m.role ≠ .standby ∧
    (s.win 0).posted = [])) := by
  refine ⟨?_, ?_, ?_, ?_, ?_, ?_, ?_, ?_⟩ <;> decide +kernel

theorem witness_RowsTakeEffect_5 :
    (let s : State := { regs := [(10288, 7#32)], pwr := { dom := [(0, .off)] } }
    s.snt.warmDue = false ∧ (let now := s.slowEdge
    s.pwr.trans = none ∧
    s.pwr.lateWake = none ∧
    s.log.pfWant = 0 ∧
    (∃ d ∈ strikeOrder, s.dom d ≠ .on) ∧
    fld (s.reg 0x2830) 5 3 = 0 ∧
    (∀ q, s.pwr.lastWake = some q → q.at_ ≠ now) ∧ (let a : BitVec 7 := 0#7
    bit (s.reg 0x2830) 0 = true ∧
    a.toNat = fld (s.reg 0x282C) 0 7))) ∧
    (let s : State := { regs := [(10288, 7#32)], pwr := { dom := [(0, .off)] } }
    s.snt.warmDue = false ∧ (let now := s.slowEdge
    s.pwr.trans = none ∧
    s.pwr.lateWake = none ∧
    s.log.pfWant = 0 ∧
    (∃ d ∈ strikeOrder, s.dom d ≠ .on) ∧
    fld (s.reg 0x2830) 5 3 = 0 ∧
    (∀ q, s.pwr.lastWake = some q → q.at_ ≠ now) ∧
    bit (s.reg 0x2830) 1 = true ∧
    bit (s.reg 0x2830) 4 ≠ !s.pwr.wakeIn)) ∧
    (let s : State := { pwr := { dom := [(0, .off)] } }
    s.snt.warmDue = false ∧
    s.domOn 0 = false) ∧
    (let s : State := { slowEdge := 1, log := { gaspQ := [(0, {})] } }
    s.snt.warmDue = false ∧ (let now := s.slowEdge
    let n : Nat := 0
    let r : Rec := {}
    let rest : List (Nat × Rec) := []
    s.log.gaspQ = (n, r) :: rest ∧
    n < now)) ∧
    (let s : State := { slowEdge := 33768, pwr := { dom := [(0, .off)] } }
    s.snt.warmDue = false ∧ (let now := s.slowEdge
    s.log.secEdge + 32768 ≤ now ∧
    bit (s.reg 0x2830) 2 = false ∧
    s.domOn 0 = false)) := by
  refine ⟨?_, ?_, ?_, ?_, ?_⟩ <;> decide +kernel

theorem witness_IdleStep :
    (let s : State := {}
    s.pending = [] ∧
    s.snt.warmDue = false ∧
    s.mir.role ≠ .primary ∧
    s.mir.takeAt = none ∧
    s.srcs = [] ∧
    s.engs = [] ∧
    s.dsts = [] ∧
    s.bases = [] ∧
    s.ctxs = [] ∧
    s.seqs = [] ∧
    s.fifo = [] ∧
    s.flush = [] ∧
    s.snt.funcs = [] ∧
    s.log.flushWant = false ∧
    s.edge = { cnt := s.edge.cnt, tcnt := s.edge.tcnt, lcnt := s.edge.lcnt, hc := s.edge.hc, hs := s.edge.hs, slots := s.edge.slots,
                   ports := s.edge.ports, loads := s.edge.loads }) := by
  decide +kernel

end Slice0
end

section
/-! The proof that a raise, and the first five stages of the pipeline, act as R52, R81, R84, R90, R91, R101 and R122 say. -/

namespace Sys2Proof.Proofs.Intake

open Sys2Proof.Machine Sys2Proof.Laws

/-! ## Running a list of changes -/

theorem forEach_cons {α : Type} (f : α → State → State) (a : α) (l : List α) (s : State) :
    forEach (a :: l) f s = forEach l f (f a s) := rfl

/-- What every change of a list leaves alone, the whole list leaves alone. -/
theorem forEach_keeps {α β : Type} (g : State → β) {f : α → State → State} {l : List α}
    (h : ∀ a ∈ l, ∀ s, g (f a s) = g s) (s : State) : g (forEach l f s) = g s := by
  induction l generalizing s with
  | nil => rfl
  | cons a l ih =>
    calc g (forEach l f (f a s)) = g (f a s) := ih (fun b hb => h b (List.mem_cons_of_mem a hb)) _
      _ = g s := h a List.mem_cons_self s

/-! ## Entering the pipeline (R79, R91) -/

section
variable (s : State) (p : Nat)

theorem src_enter_same (keep : Kept) :
    (s.enter p keep).src p =
      { s.src p with
        place := .pipe, stage := 1, since := s.rank, keep := keep, doom := false, oldKey := false,
        key := { cls := s.heapCls p, prio := s.prio p, share := keep.share.getD 0, stamp := keep.stamp.getD 0, psn := p } } := by
  unfold State.enter onlyIf
  split <;> simp [State.heapCls, State.cls, State.prio]

theorem src_enter_other (keep : Kept) {r : Nat} (h : r ≠ p) : (s.enter p keep).src r = s.src r := by
  unfold State.enter onlyIf
  split <;> simp [h]

/-! ## Taking a sequence number (R122, R292) -/

theorem seq_takeSeq_of_not_isCtx (h : isCtx p = false) : ((s.takeSeq p).src p).seq = (s.src p).seq + 1 := by
  simp [State.takeSeq, h]

@[simp] theorem q_takeSeq : ((s.takeSeq p).src p).q = (s.src p).q := by
  unfold State.takeSeq
  split <;> simp

theorem src_takeSeq_other {r : Nat} (h : r ≠ p) : (s.takeSeq p).src r = s.src r := by
  unfold State.takeSeq
  split <;> simp [h]

@[simp] theorem rank_takeSeq : (s.takeSeq p).rank = s.rank := by
  unfold State.takeSeq
  split <;> simp

@[simp] theorem tw_takeSeq (t i w : Nat) : (s.takeSeq p).tw t i w = s.tw t i w := by
  unfold State.takeSeq
  split <;> simp

/-! ## Entering Pending (R16, R101, R122) -/

theorem src_becomePending_other {r : Nat} (h : r ≠ p) : (s.becomePending p).src r = s.src r := by
  unfold State.becomePending
  split
  · simp [h]
  · simp [src_enter_other, src_takeSeq_other, h]

theorem src_becomePending_class0 (h : s.isC0 p = true) :
    (s.becomePending p).src p =
      { s.src p with
        st := .pending, place := .direct, since := s.rank, pendAt := s.rank, seq := (s.inp p).seq0 + 1,
        dst := fld (s.reg (0x0400 + 8 * p)) 16 9,
        key := { cls := 0, prio := fld (s.reg (0x0400 + 8 * p)) 8 8, share := 0, stamp := 0, psn := p } } := by
  simp [State.becomePending, h]

theorem src_becomePending_ranked (h : s.isC0 p = false) :
    (s.becomePending p).src p =
      { (s.takeSeq p).src p with
        st := .pending, pendAt := s.rank, place := .pipe, stage := 1, since := s.rank, keep := {}, doom := false, oldKey := false,
        key := { cls := s.heapCls p, prio := s.prio p, share := 0, stamp := 0, psn := p } } := by
  simp [State.becomePending, h, src_enter_same, State.heapCls, State.cls, State.prio]

end

/-! ## Raising (R101, R250, R283, R284) -/

/-- The block has served work (R283). -/
def served (s : State) : State := { s with mir := { s.mir with served := true } }

/-- The block has served work, and the queue of source `p` is longer by one. -/
def queued (s : State) (p : Nat) (i : Inst) : State := (served s).setSrc p { s.src p with q := (s.src p).q ++ [i] }

section
variable (s : State) (p : Nat) (i : Inst)

@[simp] theorem src_queued_same : (queued s p i).src p = { s.src p with q := (s.src p).q ++ [i] } := src_setSrc_same ..

theorem src_queued_other {r : Nat} (h : r ≠ p) : (queued s p i).src r = s.src r := src_setSrc_other _ _ _ _ h

@[simp] theorem rank_queued : (queued s p i).rank = s.rank := rfl
@[simp] theorem inp_queued (r : Nat) : (queued s p i).inp r = s.inp r := rfl
@[simp] theorem isC0_queued (r : Nat) : (queued s p i).isC0 r = s.isC0 r := rfl
@[simp] theorem heapCls_queued (r : Nat) : (queued s p i).heapCls r = s.heapCls r := rfl
@[simp] theorem prio_queued (r : Nat) : (queued s p i).prio r = s.prio r := rfl

theorem raise_of_not_serving (h : s.serving = false) : s.raise p i = s := by simp [State.raise, h]

theorem raise_of_serving (h : s.serving = true) : s.raise p i = (served s).raiseIn p i := by simp [State.raise, h, served]

theorem raise_of_held (h : s.serving = true) (hq : (s.src p).q ≠ []) : s.raise p i = queued s p i := by
  have held : ((served s).src p).q ≠ [] := hq
  simp only [raise_of_serving s p i h, State.raiseIn, List.isEmpty_iff, if_neg held]
  rfl

theorem raise_of_idle (h : s.serving = true) (hq : (s.src p).q = []) : s.raise p i = (queued s p i).becomePending p := by
  have idle : ((served s).src p).q = [] := hq
  simp only [raise_of_serving s p i h, State.raiseIn, List.isEmpty_iff, if_pos idle]
  rfl

theorem src_raise_other {r : Nat} (h : r ≠ p) : (s.raise p i).src r = s.src r := by
  cases hs : s.serving with
  | false => rw [raise_of_not_serving s p i hs]
  | true =>
    by_cases hq : (s.src p).q = []
    · rw [raise_of_idle s p i hs hq, src_becomePending_other _ _ h, src_queued_other s p i h]
    · rw [raise_of_held s p i hs hq, src_queued_other s p i h]

end

/-! ## The listed sources -/

theorem mFind_mem {α : Type} {m : SMap α} {k : Nat} {v : α} (h : mFind m k = some v) : (k, v) ∈ m := by
  induction m with
  | nil => simp [mFind] at h
  | cons e m ih =>
    simp only [mFind] at h
    split at h
    case isTrue hk =>
      cases h
      exact hk ▸ List.mem_cons_self
    case isFalse => exact List.mem_cons_of_mem e (ih h)

theorem mFind_map {α : Type} (f : α → α) (m : SMap α) (k : Nat) :
    mFind (m.map fun e => (e.1, f e.2)) k = (mFind m k).map f := by
  induction m with
  | nil => rfl
  | cons e m ih =>
    simp only [List.map_cons, mFind, ih]
    split <;> rfl

section
variable {s : State} {p : Nat}

/-- A source with an entry in the pipeline is listed. -/
theorem mFind_srcs_of_pipe (h : (s.src p).place = .pipe) : mFind s.srcs p = some (s.src p) := by
  cases hf : mFind s.srcs p with
  | none => simp [State.src, mGet, hf] at h
  | some x => simp [State.src, mGet, hf]

theorem mem_atStage (h : (s.src p).place = .pipe) : p ∈ s.atStage (s.src p).stage := by
  have listed : (p, s.src p) ∈ s.srcs := mFind_mem (mFind_srcs_of_pipe h)
  exact List.mem_map.2 ⟨(p, s.src p), List.mem_filter.2 ⟨listed, by simp [h]⟩, rfl⟩

/-! ## One stage at an edge (R91) -/

/-- A source after an edge of the pipeline. -/
def piped (x : Src) : Src := if x.place == .pipe then { x with stage := x.stage + 1 } else x

theorem srcs_pipeStep (s : State) : s.pipeStep.srcs = s.srcs.map fun e => (e.1, piped e.2) := by
  refine List.map_congr_left fun e _ => ?_
  unfold piped
  split <;> rfl

theorem src_pipeStep (h : (s.src p).place = .pipe) :
    s.pipeStep.src p = { s.src p with stage := (s.src p).stage + 1 } := by
  have moved : mFind s.pipeStep.srcs p = some (piped (s.src p)) := by
    rw [srcs_pipeStep, mFind_map, mFind_srcs_of_pipe h, Option.map_some]
  calc s.pipeStep.src p = piped (s.src p) := by rw [State.src, mGet, moved, Option.getD_some]
    _ = _ := by simp [piped, h]

/-! ## Stage 4: the share and the charge (R84) -/

@[simp] theorem src_charge (s : State) (v c r : Nat) : (s.charge v c).src r = s.src r := rfl

@[simp] theorem u_charge_same (s : State) (v c : Nat) : (s.charge v c).u v c = min (s.u v c + s.cost v) 0x7FFF :=
  mGet_set_same _ _ _ _

theorem stage4_of_charged (hc : 2 ≤ (s.src p).key.cls) (hk : (s.src p).keep.share = none) :
    s.stage4 p =
      (s.modSrc p fun y => { y with key := { y.key with share := s.u (s.stenant p) (s.src p).key.cls } }).charge
        (s.stenant p) (s.src p).key.cls :=
  if_pos ⟨hc, hk⟩

theorem stage4_of_uncharged (h : (s.src p).key.cls < 2 ∨ (s.src p).keep.share ≠ none) : s.stage4 p = s := by
  refine if_neg ?_
  rintro ⟨hc, hk⟩
  exact h.elim (Nat.not_lt.2 hc) (· hk)

end

/-! ## Stage 5: the stamp and the count (R81, R91) -/

/-- A source whose entry takes its stamp at the count `n` and waits at stage 6. -/
def stamped (n : BitVec 24) (x : Src) : Src :=
  { x with place := .wait6, keep := {}, key := { x.key with stamp := x.keep.stampAt n } }

/-- Source `p` is stamped at the count its destination has in `s0`, and counted when the destination has too many of Class 1. -/
def stampEntry (s0 : State) (p : Nat) (s : State) : State :=
  (s.setSrc p (stamped (s0.dst (s.src p).dst).stamp (s.src p))).countOver (s.src p).dst

/-- The insertion count of a destination advances. -/
def advance (d : Nat) (s : State) : State := s.modDst d fun y => { y with stamp := y.stamp + 1 }

/-- The destinations whose counts advance at this edge. -/
def freshDsts (s : State) : List Nat := ((s.atStage 5).filter fun p => (s.src p).keep.fresh).map fun p => (s.src p).dst

theorem stage5_eq (s : State) :
    s.stage5 = forEach (freshDsts s).eraseDups advance (forEach (s.atStage 5) (stampEntry s) s) := rfl

section
variable (s s0 : State) (p : Nat)

@[simp] theorem src_countOver (d r : Nat) : (s.countOver d).src r = s.src r := by
  unfold State.countOver onlyIf
  split <;> simp

@[simp] theorem dst_countOver (d r : Nat) : (s.countOver d).dst r = s.dst r := by
  unfold State.countOver onlyIf
  split <;> simp

@[simp] theorem src_stampEntry_same :
    (stampEntry s0 p s).src p = stamped (s0.dst (s.src p).dst).stamp (s.src p) := by simp [stampEntry]

@[simp] theorem src_stampEntry_other {r : Nat} (h : r ≠ p) : (stampEntry s0 p s).src r = s.src r := by simp [stampEntry, h]

@[simp] theorem dst_stampEntry (d : Nat) : (stampEntry s0 p s).dst d = s.dst d := by simp [stampEntry]

@[simp] theorem src_advance (d : Nat) : (advance d s).src p = s.src p := by simp [advance]

theorem dst_advance_other (c : Nat) {d : Nat} (h : d ≠ c) : (advance c s).dst d = s.dst d := by simp [advance, h]

/-- To stamp an entry that keeps nothing once more changes nothing. -/
theorem stamped_stamped (n : BitVec 24) {x : Src} (h : x.keep = {}) : stamped n (stamped n x) = stamped n x := by
  simp [stamped, h, Kept.stampAt]

/-- Stamping the entries of a list leaves a source of it that keeps nothing stamped once. -/
theorem src_forEach_stampEntry {l : List Nat} (hp : p ∈ l) (hk : (s.src p).keep = {}) :
    (forEach l (stampEntry s0) s).src p = stamped (s0.dst (s.src p).dst).stamp (s.src p) := by
  induction l generalizing s with
  | nil => cases hp
  | cons r l ih =>
    rw [forEach_cons]
    by_cases hl : p ∈ l
    · by_cases hr : p = r
      · subst hr
        rw [ih _ hl (by simp [stamped]), src_stampEntry_same]
        exact stamped_stamped _ hk
      · rw [ih _ hl (by simpa [hr] using hk), src_stampEntry_other s s0 r hr]
    · obtain rfl : p = r := (List.mem_cons.1 hp).resolve_right hl
      rw [forEach_keeps (·.src p) fun r hr t => src_stampEntry_other t s0 r (ne_of_mem_of_not_mem hr hl).symm,
        src_stampEntry_same]

/-- The counts of the destinations of a list advance, each by one. -/
theorem stamp_forEach_advance {l : List Nat} {d : Nat} (hn : l.Nodup) (hd : d ∈ l) :
    ((forEach l advance s).dst d).stamp = (s.dst d).stamp + 1 := by
  induction l generalizing s with
  | nil => cases hd
  | cons c l ih =>
    obtain ⟨hc, hn⟩ := List.nodup_cons.1 hn
    rw [forEach_cons]
    rcases List.mem_cons.1 hd with rfl | hd
    · rw [forEach_keeps (·.dst d) fun e he t => dst_advance_other t e (ne_of_mem_of_not_mem he hc).symm]
      simp [advance]
    · rw [ih _ hn hd, dst_advance_other s c (ne_of_mem_of_not_mem hd hc)]

end

theorem nodup_eraseDups : ∀ l : List Nat, l.eraseDups.Nodup
  | [] => by simp
  | a :: l => by
    rw [List.eraseDups_cons, List.nodup_cons]
    exact ⟨by simp, nodup_eraseDups _⟩
termination_by l => l.length
decreasing_by exact Nat.lt_succ_of_le (List.length_filter_le _ _)

section
variable {s : State} {p : Nat} (hp : (s.src p).place = .pipe) (h5 : (s.src p).stage = 5) (hk : (s.src p).keep = {})
include hp h5 hk

theorem src_stage5 : s.stage5.src p = stamped (s.dst (s.src p).dst).stamp (s.src p) := by
  have at5 : p ∈ s.atStage 5 := h5 ▸ mem_atStage hp
  rw [stage5_eq, forEach_keeps (·.src p) fun d _ t => src_advance t p d, src_forEach_stampEntry s s p at5 hk]

theorem stamp_stage5 : (s.stage5.dst (s.src p).dst).stamp = (s.dst (s.src p).dst).stamp + 1 := by
  have at5 : p ∈ s.atStage 5 := h5 ▸ mem_atStage hp
  have fresh : (s.src p).dst ∈ (freshDsts s).eraseDups :=
    List.mem_eraseDups.2 (List.mem_map_of_mem (List.mem_filter.2 ⟨at5, by simp [hk, Kept.fresh]⟩))
  rw [stage5_eq, stamp_forEach_advance _ (nodup_eraseDups _) fresh,
    forEach_keeps (·.dst (s.src p).dst) fun r _ t => dst_stampEntry t s r _]

end

/-! ## The statement -/

theorem isC0_iff (s : State) (p : Nat) : s.isC0 p = true ↔ p ≤ 63 ∧ bit (s.reg (0x0400 + 8 * p)) 0 = true := by
  rw [State.isC0, Bool.and_eq_true, decide_eq_true_iff, Nat.lt_succ_iff]

/-- An idle source goes Pending: its entry awaits the direct path when it is Class 0 (R52, R101). -/
theorem src_raise_class0 {s : State} {p : Nat} (i : Inst) (hs : s.serving = true) (hq : (s.src p).q = []) (h : s.isC0 p = true) :
    let x := (s.raise p i).src p
    x.st = .pending ∧ x.q = [i] ∧ x.since = s.rank ∧ x.pendAt = s.rank ∧ x.key.psn = p ∧ x.place = .direct ∧ x.key.cls = 0 ∧
      x.seq = (s.inp p).seq0 + 1 := by
  simp [raise_of_idle s p i hs hq, src_becomePending_class0, h, hq]

/-- An idle source that is not Class 0 goes Pending: its entry enters the pipeline (R91, R101, R122). -/
theorem src_raise_ranked {s : State} {p : Nat} (i : Inst) (hs : s.serving = true) (hq : (s.src p).q = []) (h : s.isC0 p = false) :
    let x := (s.raise p i).src p
    x.st = .pending ∧ x.q = [i] ∧ x.since = s.rank ∧ x.pendAt = s.rank ∧ x.key.psn = p ∧ x.place = .pipe ∧ x.stage = 1 ∧
      x.keep = {} ∧ x.key.cls = s.heapCls p ∧ x.key.prio = s.prio p ∧ (isCtx p = false → x.seq = (s.src p).seq + 1) := by
  have seq (hc : isCtx p = false) := seq_takeSeq_of_not_isCtx (queued s p i) p hc
  simpa [raise_of_idle s p i hs hq, src_becomePending_ranked, h, hq] using seq

/-- Settles O11: a raise by the lemmas on an idle and on a busy source, the pipeline's stages each by its own lemma. -/
theorem raiseAnInstance : Obligations.RaiseAnInstance := by
  unfold Obligations.RaiseAnInstance
  refine ⟨fun s p i => ⟨isC0_iff s p, raise_of_not_serving s p i, fun hs hq => ?_, fun hs hq => ?_⟩,
    fun s p hp => ⟨?_, fun hc hk => ?_, stage4_of_uncharged, fun _ h5 hk => ?_⟩⟩
  · exact ⟨by simp [raise_of_held s p i hs hq], fun r hr => src_raise_other s p i hr⟩
  · cases h0 : s.isC0 p with
    | true =>
      obtain ⟨hst, hx, hsince, hpend, hpsn, hdirect⟩ := src_raise_class0 i hs hq h0
      exact ⟨hst, hx, hsince, hpend, hpsn, fun r hr => src_raise_other s p i hr, fun _ => hdirect, nofun⟩
    | false =>
      obtain ⟨hst, hx, hsince, hpend, hpsn, hpipe⟩ := src_raise_ranked i hs hq h0
      exact ⟨hst, hx, hsince, hpend, hpsn, fun r hr => src_raise_other s p i hr, nofun, fun _ => hpipe⟩
  · simp [src_pipeStep hp]
  · rw [stage4_of_charged hc hk]
    exact ⟨by simp, u_charge_same _ _ _⟩
  · rw [src_stage5 hp h5 hk]
    exact ⟨rfl, by simp [stamped, hk, Kept.stampAt], stamp_stage5 hp h5 hk⟩

end Sys2Proof.Proofs.Intake
end

section
/-! The proof that the right shift rounds by its four codes, and that MUL and ACCRD saturate what it gives, as R193 and R194 say. -/

namespace Sys2Proof.Proofs.Rounding

open Sys2Proof.Machine Sys2Proof.Laws

/-! ## The four codes (R194) -/

section
variable (v : Int) (sh : Nat)

/-- The model's floor division by a power of two is the Euclidean one, the divisor being positive. -/
theorem fdiv_two_pow : v.fdiv (2 ^ sh) = v / 2 ^ sh := Int.fdiv_eq_ediv_of_nonneg v (by positivity)

theorem sub_ediv_mul_two_pow : v - v / 2 ^ sh * 2 ^ sh = v % 2 ^ sh := by rw [Int.emod_def, Int.mul_comm]

theorem roundShift_zero (rnd : BitVec 2) : roundShift v 0 rnd = v := rfl

variable {sh} (h : 0 < sh)
include h

theorem roundShift_floor : roundShift v sh 0 = v / 2 ^ sh := by
  simp [roundShift, h.ne', fdiv_two_pow]

theorem roundShift_half_up :
    roundShift v sh 1 = if 2 ^ (sh - 1) ≤ v % 2 ^ sh then v / 2 ^ sh + 1 else v / 2 ^ sh := by
  simp [roundShift, h.ne', fdiv_two_pow, sub_ediv_mul_two_pow]

theorem roundShift_half_even :
    roundShift v sh 2 =
      if 2 ^ (sh - 1) < v % 2 ^ sh ∨ v % 2 ^ sh = 2 ^ (sh - 1) ∧ v / 2 ^ sh % 2 = 1 then v / 2 ^ sh + 1 else v / 2 ^ sh := by
  simp [roundShift, h.ne', fdiv_two_pow, sub_ediv_mul_two_pow]

/-- A half goes away from zero: up exactly when the value is not negative. -/
theorem roundShift_half_away :
    roundShift v sh 3 =
      if 2 ^ (sh - 1) < v % 2 ^ sh ∨ v % 2 ^ sh = 2 ^ (sh - 1) ∧ 0 ≤ v then v / 2 ^ sh + 1 else v / 2 ^ sh := by
  by_cases hv : 0 ≤ v
  · simp [roundShift, h.ne', fdiv_two_pow, sub_ediv_mul_two_pow, hv, le_iff_lt_or_eq,
      eq_comm (a := (2 : Int) ^ (sh - 1))]
  · simp [roundShift, h.ne', fdiv_two_pow, sub_ediv_mul_two_pow, hv]

end

/-! ## A saturated result in a register (R193) -/

/-- Saturation to `n` bits is a clamp between the bounds of `n`-bit two's complement. -/
theorem satInt_eq_clamp (n : Nat) (v : Int) : satInt n v = max (-2 ^ (n - 1)) (min v (2 ^ (n - 1) - 1)) := by
  have bound : (0 : Int) < 2 ^ (n - 1) := by positivity
  unfold satInt
  split
  · omega
  · split <;> omega

@[simp] theorem advance_regs (x : Eng) (now target cycles : Nat) : (x.advance now target cycles).regs = x.regs := by
  cases h : x.lp with
  | none => simp only [Eng.advance, h]
  | some l =>
    simp only [Eng.advance, h]
    split
    · rfl
    · split <;> rfl

/-- An instruction that takes a saturating result and goes on leaves the limited result in its register. -/
theorem wreg_of_issue_setSat {i : Instr} {s : State} {e n k : Nat} {d : BitVec 5} {v : Int} {run : State → State}
    (hx : exec i s = done s (s.issue e i .ok run)) (hr : run s = (s.setSat e d n v).advance e k) (hi : Issues s e i) :
    ∃ u, exec i s = .next u ∧ u.wreg e d = BitVec.ofInt 32 (satInt n v) := by
  have becomes := engBecomes_next (engBecomes_sat e s d n v) k
  rw [← hr] at becomes
  obtain ⟨u, hu, own, -⟩ := leaves_issue hx hi becomes
  exact ⟨u, hu, by simp [State.wreg, own]⟩

section
variable {s : State} {e : Nat} {d sh : BitVec 5} {rnd : BitVec 2}

theorem wreg_mul {a b : BitVec 5} (hi : Issues s e (.mul e d a b sh rnd .ok)) :
    ∃ u, exec (.mul e d a b sh rnd .ok) s = .next u ∧
      u.wreg e d = BitVec.ofInt 32 (satInt 32 (roundShift (s.swreg e a * s.swreg e b) sh.toNat rnd)) :=
  have hx : exec (.mul e d a b sh rnd .ok) s = execMul e d a b sh rnd .ok s := rfl
  wreg_of_issue_setSat hx rfl hi

theorem wreg_accrd {n16 : Bool} (hi : Issues s e (.accrd e d sh rnd n16 .ok)) :
    ∃ u, exec (.accrd e d sh rnd n16 .ok) s = .next u ∧
      u.wreg e d = BitVec.ofInt 32 (satInt (if n16 then 16 else 32) (roundShift (s.accInt e) sh.toNat rnd)) :=
  have hx : exec (.accrd e d sh rnd n16 .ok) s = execAccrd e d sh rnd n16 .ok s := rfl
  wreg_of_issue_setSat hx rfl hi

end

/-! ## The statement -/

/-- Settles O4: each code by its own lemma, MUL and ACCRD by the lemma on a saturating result in a register. -/
theorem roundingCodes : Obligations.RoundingCodes := by
  unfold Obligations.RoundingCodes
  refine ⟨fun v sh rnd => ⟨roundShift_zero v rnd, fun h => ?_⟩, fun s e d a b sh rnd n16 => ⟨?_, ?_⟩⟩
  · exact ⟨roundShift_floor v h, roundShift_half_up v h, roundShift_half_even v h, roundShift_half_away v h⟩
  · simpa [satInt_eq_clamp, State.swreg] using wreg_mul
  · cases n16 with
    | true => simpa [satInt_eq_clamp, State.accInt] using wreg_accrd (n16 := true)
    | false => simpa [satInt_eq_clamp, State.accInt] using wreg_accrd (n16 := false)

end Sys2Proof.Proofs.Rounding
end
